-- ==== Sys2Proof/Word.lean ====
section
/-! DEFINITION. The word types of the Athvela 2240: bytes of the two links, the millisecond tick, a page number, and a pixel level. -/

namespace Sys2Proof

/-- One byte of either link. -/
abbrev Byte := BitVec 8

/-- The free-running 32-bit millisecond counter of the Timer Bank (00_scope, Time); differences are taken modulo 2^32. -/
abbrev Tick := BitVec 32

/-- A page number, 0..4,294,967,295, counted modulo 2^32 (R104). -/
abbrev PageNumber := BitVec 32

/-- A pixel level or a coverage value, 0..15: level 0 is full black, level 15 is paper white (00_scope, Pixel grid). -/
abbrev Level := Fin 16

/-- Paper white. -/
def paper : Level := 15

end Sys2Proof
end

