-- ==== Sys2Proof/Config.lean ====
section
/-! DEFINITION. The sizes and limits that the manual fixes for the part. The manual leaves no value to the implementation
and calls no result of a step undefined, so this file holds no free value (no opaque constant). -/

namespace Sys2Proof.Config

/-- Bytes of the Intake Ring (1.4). -/
@[simp] abbrev ringBytes : Nat := 32768
/-- Shortest and longest record, header included (1.2). -/
@[simp] abbrev minRecord : Nat := 4
@[simp] abbrev maxRecord : Nat := 2048
/-- Slots of the Command Queue (1.5). -/
@[simp] abbrev commandSlots : Nat := 4
/-- Entries of the style stack (2.6). -/
@[simp] abbrev stackDepth : Nat := 8
/-- The baseline shift lies in -64..+64 px (R31). -/
@[simp] abbrev maxShift : Int := 64
/-- Bytes of the Glyph Store (3.1). -/
@[simp] abbrev storeBytes : Nat := 786432
/-- Glyph records of one table (3.2). -/
@[simp] abbrev tableGlyphs : Nat := 4096
/-- Largest advance, in su (3.4, R19). -/
@[simp] abbrev maxAdvance : Nat := 16383
/-- Largest side of a glyph bitmap, in px (3.4). -/
@[simp] abbrev maxSide : Nat := 224
/-- Kern adjustments lie in -512..+511 su (3.2). -/
@[simp] abbrev minKern : Int := -512
@[simp] abbrev maxKern : Int := 511
/-- Entries of the line buffer (4.1). -/
@[simp] abbrev bufferEntries : Nat := 256
/-- Ordinals of a page (R59, R74). -/
@[simp] abbrev pageOrdinals : Nat := 8192
/-- Lines of a page (R74). -/
@[simp] abbrev pageLines : Nat := 160
/-- The panel and each plane, in px (00_scope). -/
@[simp] abbrev panelWidth : Nat := 1680
@[simp] abbrev panelHeight : Nat := 2240
/-- Sub-units to the pixel (00_scope). -/
@[simp] abbrev suPerPixel : Int := 64
/-- The frame clamp of R99. -/
@[simp] abbrev maxSideMargins : Nat := 1456
@[simp] abbrev maxEndMargins : Nat := 2016
/-- Side of a tile, and the tile grid (00_scope). -/
@[simp] abbrev tileSide : Nat := 56
@[simp] abbrev tileColumns : Nat := 30
@[simp] abbrev tileRows : Nat := 40
/-- Notes of a page and ids of the open-note list (R116, R119). -/
@[simp] abbrev pageNotes : Nat := 64
@[simp] abbrev openNotes : Nat := 8
/-- Paints that release the hold set (R132). -/
@[simp] abbrev chainLimit : Nat := 8
/-- Pending update requests (R155). -/
@[simp] abbrev queueRequests : Nat := 16
/-- Largest residue (R151). -/
@[simp] abbrev maxResidue : Nat := 255

end Sys2Proof.Config
end

