-- ==== Sys2Proof/Syntax.lean ====
section
/-! DEFINITION. The commands of the composer: one constructor per row of spec/opcode_table.json, in the table's order but for the
last three rows, which stand beside the steps they resemble. -/

namespace Sys2Proof

/-- One indivisible step of the part. The outside gives an event its operand: the byte that crossed a link, the lane whose timer ran
out, the bits of a byte cut short. A step of the Composer or of the Command Unit has no operand of its own: R53 and R9 make it
take the record at the head of the Intake Ring, or the oldest command of the Command Queue, and all its fields lie there. -/
inductive Instr where
  /-- RESET_N is asserted and released. -/
  | powerOnReset
  /-- PSL_SEL_N falls. -/
  | transferBegin
  /-- PSL_SEL_N rises, with this many bits of an unfinished byte sampled (R1: 0..7). -/
  | transferEnd (partialBits : Nat)
  /-- The fourth byte of a header arrives. -/
  | recordHeader (b : Byte)
  /-- The last byte of an admitted stream record arrives. -/
  | streamRecordEntry (b : Byte)
  /-- The last byte of an admitted command arrives. -/
  | commandWhole (b : Byte)
  /-- The Command Unit takes and executes a command of the kind named. -/
  | pageShow
  | pageDrop
  | notePaint
  | noteErase
  | refreshRequest
  | eventAck
  | query
  | streamReset
  | panelReset
  /-- The Composer takes the record of the kind named from the head of the ring. -/
  | pageOpen
  | pageClose
  | paraStart
  | paraEnd
  /-- One step of the TEXT_RUN at the head of the ring. -/
  | textRunEntry
  /-- The Composer re-appends the oldest entry of the carry. -/
  | carryReappend
  | unassignedRecord
  | faceLoad
  | faceUnload
  | faceSelect
  | stylePush
  | stylePop
  | baselineShift
  | noteOpen
  | noteClose
  | tableBegin
  | glyphDefine
  | tableEnd
  | tableDrop
  | paramSet
  /-- The transmitter sends the last byte of the UPDATE frame in hand. -/
  | sendEnd
  /-- The fourth byte (the result field) of a completion frame arrives on PNL_RX. -/
  | completionFrame (result : Byte)
  /-- A break condition on PNL_RX. -/
  | pnlRxBreak
  /-- The timer of a WAITING lane runs out (lanes 0..3). -/
  | laneTimeout (lane : Nat)
  | coalescingTimerExpiry
  | settleTimerExpiry
  | sweepTimerExpiry
  /-- A byte completes on PSL_DI. -/
  | inboundByte (b : Byte)
  /-- A byte is read from PNL_RX. -/
  | pnlRxByte (b : Byte)
  /-- The millisecond tick advances by one. -/
  | tick
  deriving DecidableEq, Repr

end Sys2Proof
end

