-- ==== Sys2Proof/WellFormed.lean ====
section
/-! DEFINITION. Which commands can occur at all: an operand outside its range names no event of the part. -/

namespace Sys2Proof

/-- R1: a select edge leaves one to seven bits of a byte unfinished, or none. -/
def partialBitsOk (n : Nat) : Bool := n < 8

/-- R172: the lanes are numbered 0 to 3. -/
def laneOk (n : Nat) : Bool := n < 4

/-- A command whose operands lie in their ranges. -/
def Instr.wellFormed : Instr → Bool
  | .transferEnd n => partialBitsOk n
  | .laneTimeout n => laneOk n
  | .powerOnReset | .transferBegin | .recordHeader _ | .streamRecordEntry _ | .commandWhole _
  | .pageShow | .pageDrop | .notePaint | .noteErase | .refreshRequest | .eventAck | .query | .streamReset | .panelReset
  | .pageOpen | .pageClose | .paraStart | .paraEnd | .textRunEntry | .carryReappend | .unassignedRecord
  | .faceLoad | .faceUnload | .faceSelect | .stylePush | .stylePop | .baselineShift | .noteOpen | .noteClose
  | .tableBegin | .glyphDefine | .tableEnd | .tableDrop | .paramSet
  | .sendEnd | .completionFrame _ | .pnlRxBreak | .coalescingTimerExpiry | .settleTimerExpiry | .sweepTimerExpiry
  | .inboundByte _ | .pnlRxByte _ | .tick => true

end Sys2Proof
end

