-- ==== Sys2Proof/Machine/State.lean ====
section
/-! DEFINITION. The state of the composer, block by block as the table "Blocks" of 00_scope.md lists them, the outcomes a step may
have, and the state right after power-on reset. Where the manual names one quantity twice (the ring's fill and free bytes, a face's
use count, the reserved total of the Glyph Store, a level event), the state stores what the quantity is made of and Ops, Flags and
Faces compute the rest; INVENTORY.md lists each. -/

namespace Sys2Proof.Machine

open Sys2Proof

/-! ### Link Interface, Intake Ring, Command Queue (chapter 1) -/

/-- A framed record or command: the header's kind and tag, and the bytes after the header (1.2). -/
structure Record where
  kind : Byte
  tag  : Byte
  body : List Byte
  deriving DecidableEq, Repr

/-- The pin PSL_SEL_N and what its low level means: `transfer` after a falling edge, `ignored` when RESET_N was released while it was
already low (R1). -/
inductive Select where
  | high
  | ignored
  | transfer
  deriving DecidableEq, Repr

/-- The framing states of 1.2 with what each has received. `len` is the whole record's length; `got` holds, oldest first, the header
bytes so far, or the body bytes so far. -/
inductive Framing where
  | between
  | header (got : List Byte)
  | bodyStream (kind tag : Byte) (len : Nat) (got : List Byte)
  | bodyCommand (kind tag : Byte) (len : Nat) (got : List Byte)
  | skipCommand (left : Nat)
  | skipRest
  deriving DecidableEq, Repr

/-- The Link Interface: the select pin, framing, the transfer's fixed outbound bytes (R13), the whole bytes clocked in it, the length of
the reply it carries, whether a QUERY replaced that reply meanwhile (R15), and the pending reply (empty: none pending). -/
structure Link where
  select   : Select
  framing  : Framing
  outbound : List Byte
  clocked  : Nat
  carried  : Nat
  replaced : Bool
  reply    : List Byte
  deriving DecidableEq, Repr

/-- A NOTE_PAINT or NOTE_ERASE whose re-render is held (R130): the command in its executing slot, the line indices and tiles of the
re-render, and the id and ordinal that R126 and R131 record. -/
structure HeldPaint where
  command : Record
  lines   : List Nat
  tiles   : List Nat
  id      : Nat
  ordinal : Nat
  deriving DecidableEq, Repr

/-- The Command Queue and Command Unit (1.5): the queued commands, oldest first; the command in the executing slot between two events (only
a held paint or erase can stay there); and the stream hold count (R11). -/
structure CommandUnit where
  queued     : List Record
  executing  : Option HeldPaint
  streamHold : Nat
  deriving DecidableEq, Repr

/-! ### Face Table (chapter 2) -/

/-- The fields of a present face entry (2.1), but for its use count, which R22 makes a sum. -/
structure Face where
  table       : Nat
  firstCode   : Nat
  lastCode    : Nat
  replacement : Nat
  hyphen      : Nat
  space       : Nat
  ascent      : Nat
  descent     : Nat
  gap         : Nat
  deriving DecidableEq, Repr

/-- The Face Table: entries by handle (none: absent; handle 0 has no entry), the current face (0: null), the baseline shift, the style
stack with its newest entry first, and the two sticky flags of 2.6. The face set of a plane stands in its page record. -/
structure FaceTable where
  entries    : Vector (Option Face) 32
  current    : Nat
  shift      : Int
  stack      : List (Nat × Int)
  stackError : Bool
  underflow  : Bool
  deriving DecidableEq, Repr

/-! ### Glyph Store (chapter 3) -/

inductive TableState where
  | empty
  | loading
  | ready
  | faulty
  deriving DecidableEq, Repr

/-- A glyph record (3.4). `coverage` is the decoded bitmap, row by row. -/
structure Glyph where
  code      : Nat
  advance   : Nat
  bearing   : Int
  top       : Int
  width     : Nat
  height    : Nat
  kernClass : Nat
  coverage  : List Level
  deriving DecidableEq, Repr

/-- A table record (3.2). The glyph records stand in their code order, newest last; the glyph count and the last code defined are read
off the list. `kern` holds the 256 adjustments, left class by left class. -/
structure GlyphTable where
  state  : TableState
  budget : Nat
  fill   : Nat
  glyphs : List Glyph
  kern   : List Int
  deriving DecidableEq, Repr

/-! ### Pages (chapters 6 and 7) -/

inductive NoteStyle where
  | shade
  | underline
  | doubleUnderline
  | marginBar
  deriving DecidableEq, Repr

/-- A note record (R116). `stop` is the end ordinal: absent exactly while the note is OPEN. -/
structure Note where
  id           : Nat
  style        : NoteStyle
  tone         : Nat
  start        : Nat
  stop         : Option Nat
  continued    : Bool
  closedByPage : Bool
  live         : Bool
  deriving DecidableEq, Repr

/-- The margins after the clamp of R99. -/
structure Frame where
  left    : Nat
  right   : Nat
  top     : Nat
  bottom  : Nat
  clamped : Bool
  deriving DecidableEq, Repr

/-- The flags of a line record (6.2). -/
structure LineFlags where
  justified  : Bool
  loose      : Bool
  forced     : Bool
  overwide   : Bool
  hyphenated : Bool
  paraFirst  : Bool
  paraLast   : Bool
  overtall   : Bool
  deriving DecidableEq, Repr

/-- A line record (6.2). -/
structure Line where
  first    : Nat
  count    : Nat
  baseline : Nat
  ascent   : Nat
  descent  : Nat
  gap      : Nat
  offset   : Int
  flags    : LineFlags
  deriving DecidableEq, Repr

/-- A placement (6.2). `code` is the code after substitution. -/
structure Placement where
  ordinal : Nat
  code    : Nat
  face    : Nat
  x       : Int
  cls     : Nat
  shift   : Int
  drawn   : Bool
  deriving DecidableEq, Repr

/-- A page record (6.2), and with it the face set of its plane (R22), which lives and dies with the record: handles in rising order. -/
structure Page where
  number       : PageNumber
  frame        : Frame
  glyphCount   : Nat
  overflowed   : Bool
  continuation : Bool
  lines        : List Line
  placements   : List Placement
  notes        : List Note
  faceSet      : List Nat
  deriving DecidableEq, Repr

inductive PlaneId where
  | a
  | b
  deriving DecidableEq, Repr

/-- The part a plane plays while it holds a page (R96). -/
inductive Part where
  | composing
  | ready
  | shown
  | retiring
  deriving DecidableEq, Repr

/-- A page on a plane and the part the plane plays. -/
structure Held where
  part : Part
  page : Page
  deriving DecidableEq, Repr

/-- The pixels of a plane that are not paper: (y × 1680 + x, level), addresses strictly rising, no level 15 (Pixels.lean). -/
abbrev Pixels := List (Nat × Level)

/-- A plane: FREE exactly when it holds no page (R96). -/
structure Plane where
  held   : Option Held
  pixels : Pixels
  deriving DecidableEq, Repr

/-- The Plane Manager: both planes and the show report of R107. -/
structure Planes where
  a           : Plane
  b           : Plane
  showPending : Bool
  showing     : List (Fin 4)
  deriving DecidableEq, Repr

/-! ### Composer (chapters 4 and 5) -/

/-- An entry of the line buffer or the carry (4.1). -/
structure Entry where
  code      : Nat
  subst     : Nat
  cls       : Nat
  face      : Nat
  shift     : Int
  ordinal   : Nat
  advance   : Nat
  kernClass : Option Nat
  kern      : Option Int
  deriving DecidableEq, Repr

inductive Alignment where
  | justify
  | left
  | right
  | center
  deriving DecidableEq, Repr

/-- The paragraph record (R69). -/
structure Para where
  alignment   : Alignment
  indent      : Nat
  spaceBefore : Nat
  firstDone   : Bool
  deriving DecidableEq, Repr

/-- The pending page of WAIT_PLANE: a pending open (R101), or a pending continuation with the note list held for it (R104, R124). -/
inductive PendingPage where
  | opening (number : PageNumber) (frame : Frame)
  | continuation (number : PageNumber) (frame : Frame) (notes : List Note)
  deriving DecidableEq, Repr

/-- The Composer states (4.1); the pending page exists exactly in WAIT_PLANE. -/
inductive ComposerState where
  | idle
  | composing
  | waitPlane (p : PendingPage)
  deriving DecidableEq, Repr

/-- The Composer. `carry` holds the carried entries not yet re-appended (R74, R76). `applied` is set while the PARAM_SET at the ring head
has been applied once and was stopped by PAGE_FULL handling (R83). -/
structure Composer where
  state       : ComposerState
  index       : Nat
  buffer      : List Entry
  nextOrdinal : Nat
  para        : Option Para
  carry       : List Entry
  applied     : Bool
  deriving DecidableEq, Repr

/-! ### Note Unit (chapter 7) -/

/-- A running timer: its deadline, and whether the tick has reached it. -/
structure Deadline where
  due    : Tick
  passed : Bool
  deriving DecidableEq, Repr

/-- The Note Unit: the open-note list, oldest first (R119), and the paint hold set: held tiles in rising order, chain count, coalescing
timer (R132). -/
structure NoteUnit where
  openIds  : List Nat
  tiles    : List Nat
  chain    : Nat
  coalesce : Option Deadline
  deriving DecidableEq, Repr

/-! ### Refresh Planner (chapter 9) -/

inductive Mode where
  | full
  | grey
  | fast
  deriving DecidableEq, Repr

inductive Source where
  | flip
  | paint
  | request
  | settle
  | cleanup
  deriving DecidableEq, Repr

/-- A tile rectangle, both corners included (00_scope, Tiles). -/
structure Rect where
  c0 : Nat
  r0 : Nat
  c1 : Nat
  r1 : Nat
  deriving DecidableEq, Repr

/-- An update request (R154); its arrival stamp is its place in the queue. -/
structure Request where
  source   : Source
  priority : Nat
  mode     : Mode
  rect     : Rect
  deriving DecidableEq, Repr

/-- A tile record (R151). -/
structure Tile where
  residue : Nat
  coarse  : Bool
  deriving DecidableEq, Repr

/-- The Refresh Planner: tile records by index, pending requests in arrival order, the flip counter with its mark, and its two timers. -/
structure Planner where
  tiles       : Vector Tile 1200
  queue       : List Request
  flipCounter : Nat
  fullNext    : Bool
  settle      : Option Deadline
  sweep       : Option Deadline
  deriving DecidableEq, Repr

/-! ### Lane Controller (chapter 10) -/

inductive LaneState where
  | idle
  | sending
  | waiting
  | faulted
  deriving DecidableEq, Repr

/-- What a dispatch writes into a lane record (R172, R173). -/
structure Update where
  source    : Source
  mode      : Mode
  rect      : Rect
  plane     : PlaneId
  threshold : Nat
  limit     : Nat
  started   : Tick
  deriving DecidableEq, Repr

/-- A lane record; `update` is absent until the lane's first dispatch (R183: empty). -/
structure Lane where
  state   : LaneState
  seq     : BitVec 8
  update  : Option Update
  elapsed : Nat
  deriving DecidableEq, Repr

/-- What has gone out on PNL_TX: a whole UPDATE frame, given by its header fields and the levels it carries (those that are not 15, by plane
address), a frame cut by a break, or the ABORT frame. -/
inductive TxItem where
  | update (lane : Fin 4) (seq : BitVec 8) (mode : Mode) (rect : Rect) (levels : Pixels)
  | cut (lane : Fin 4) (seq : BitVec 8)
  | abort
  deriving DecidableEq, Repr

/-- The Lane Controller: four lanes, the last durations, the transmit order (oldest first), the lane whose frame the transmitter is sending,
the fields of a completion frame received so far (none: between frames), and the MODEL'S own record of PNL_TX since power-on. -/
structure LaneController where
  lane     : Vector Lane 4
  lastFull : Tick
  lastGrey : Tick
  lastFast : Tick
  order    : List (Fin 4)
  tx       : Option (Fin 4)
  rx       : Option (List Byte)
  sent     : List TxItem
  deriving DecidableEq, Repr

/-! ### Event Unit and parameters (chapter 11) -/

inductive FaceReason where
  | range
  | absent
  | inUse
  | tableNotReady
  | badEntry
  | nullFace
  deriving DecidableEq, Repr

inductive GlyphReason where
  | outOfRange
  | undefined
  deriving DecidableEq, Repr

inductive TableReason where
  | range
  | notEmpty
  | noRoom
  | notLoading
  | inUse
  | field
  | order
  | count
  | overfill
  | bitmap
  deriving DecidableEq, Repr

inductive NoteReason where
  | badId
  | duplicate
  | openFull
  | listFull
  | notOpen
  deriving DecidableEq, Repr

inductive CommandReason where
  | unknownKind
  | badLength
  | queueFull
  | nothingReady
  | noPage
  | badId
  | badStyle
  | range
  | listFull
  | unknown
  | superseded
  | badMode
  deriving DecidableEq, Repr

/-- A first-fault detail with its more mark (R186). -/
structure Detail (ρ : Type) where
  reason  : ρ
  kind    : Byte
  tag     : Byte
  value   : Nat
  ordinal : Nat
  more    : Bool
  deriving DecidableEq, Repr

/-- The Event Unit: sixteen edge flags in digest order (R14), and the five detail slots. -/
structure EventUnit where
  flags   : BitVec 16
  face    : Option (Detail FaceReason)
  glyph   : Option (Detail GlyphReason)
  table   : Option (Detail TableReason)
  note    : Option (Detail NoteReason)
  command : Option (Detail CommandReason)
  deriving DecidableEq, Repr

/-- The parameters of R193, and the event mask of R187 that two of them write. Timeout limits are held in units of 16 ms (R179). -/
structure Params where
  stretch         : Nat
  shrink          : Nat
  coalescing      : Nat
  shadeFloor      : Nat
  threshold       : Nat
  priorityFlip    : Nat
  priorityPaint   : Nat
  priorityRequest : Nat
  prioritySettle  : Nat
  priorityCleanup : Nat
  floor           : Nat
  fullEvery       : Nat
  settle          : Nat
  sweep           : Nat
  continuous      : Bool
  residueLimit    : Nat
  limitFull       : Nat
  limitGrey       : Nat
  limitFast       : Nat
  edgeMask        : BitVec 16
  levelMask       : BitVec 4
  deriving DecidableEq, Repr

/-! ### The whole machine -/

/-- The state of the composer. `pending` is the MODEL'S queue of the steps that are waiting to be taken, first in, first out; everything else
is the part's. -/
structure State where
  pending : List Instr
  link    : Link
  ring    : List Record
  cmd     : CommandUnit
  faces   : FaceTable
  glyphs  : Vector GlyphTable 16
  comp    : Composer
  planes  : Planes
  notes   : NoteUnit
  planner : Planner
  lanes   : LaneController
  tick    : Tick
  events  : EventUnit
  params  : Params
  deriving DecidableEq, Repr

/-- Why a step stops. -/
inductive Fault where
  /-- Raised by exec on a command that WellFormed refuses: a select edge with eight or more bits of a byte unfinished, or a timeout of a lane
  above 3. Safe: the part has no such event. -/
  | illFormed
  deriving DecidableEq, Repr

/-- Why a step has no meaning. -/
inductive Refusal where
  /-- Raised by an arm of exec whose command has no meaning in this model yet; no arm raises it. Safe. -/
  | notModelled (mnemonic : String)
  deriving DecidableEq, Repr

/-! ### Power-on values -/

/-- R36: an EMPTY table. -/
def GlyphTable.empty : GlyphTable :=
  { state := .empty, budget := 0, fill := 0, glyphs := [], kern := List.replicate 256 0 }

/-- R115: a FREE plane. The manual gives its pixels no value (they are of no account); here nothing is listed, so every pixel is paper. DESIGN
CHOICE (log 2). -/
def Plane.free : Plane := { held := none, pixels := [] }

/-- R183: a lane after power-on. -/
def Lane.reset : Lane := { state := .idle, seq := 0, update := none, elapsed := 0 }

/-- R193: every parameter at its default. -/
def Params.reset : Params :=
  { stretch := 24, shrink := 4, coalescing := 4, shadeFloor := 4, threshold := 8,
    priorityFlip := 2, priorityPaint := 3, priorityRequest := 1, prioritySettle := 1, priorityCleanup := 0,
    floor := 0, fullEvery := 6, settle := 300, sweep := 600, continuous := true, residueLimit := 48,
    limitFull := 125, limitGrey := 75, limitFast := 37, edgeMask := 0xFFFF, levelMask := 0xF }

/-- R16. -/
def Link.reset : Link :=
  { select := .high, framing := .between, outbound := [], clocked := 0, carried := 0, replaced := false, reply := [] }

/-- R16. -/
def CommandUnit.reset : CommandUnit := { queued := [], executing := none, streamHold := 0 }

/-- R34. -/
def FaceTable.reset : FaceTable :=
  { entries := Vector.replicate 32 none, current := 0, shift := 0, stack := [], stackError := false, underflow := false }

/-- R58. -/
def Composer.reset : Composer :=
  { state := .idle, index := 0, buffer := [], nextOrdinal := 0, para := none, carry := [], applied := false }

/-- R115. -/
def Planes.reset : Planes := { a := Plane.free, b := Plane.free, showPending := false, showing := [] }

/-- R125, R136. -/
def NoteUnit.reset : NoteUnit := { openIds := [], tiles := [], chain := 0, coalesce := none }

/-- R171. -/
def Planner.reset : Planner :=
  { tiles := Vector.replicate 1200 { residue := 255, coarse := false }, queue := [], flipCounter := 0, fullNext := true,
    settle := none, sweep := some { due := 600000, passed := false } }

/-- R183. -/
def LaneController.reset : LaneController :=
  { lane := Vector.replicate 4 Lane.reset, lastFull := 0, lastGrey := 0, lastFast := 0, order := [], tx := none, rx := none, sent := [] }

/-- R184, R186. -/
def EventUnit.reset : EventUnit :=
  { flags := 0, face := none, glyph := none, table := none, note := none, command := none }

/-- The composer after power-on reset, with PSL_SEL_N high and no step waiting. -/
def State.reset : State :=
  { pending := [], link := Link.reset, ring := [], cmd := CommandUnit.reset, faces := FaceTable.reset,
    glyphs := Vector.replicate 16 GlyphTable.empty, comp := Composer.reset, planes := Planes.reset, notes := NoteUnit.reset,
    planner := Planner.reset, lanes := LaneController.reset, tick := 0, events := EventUnit.reset, params := Params.reset }

end Sys2Proof.Machine
end

