-- ==== Sys2Proof/Machine/Operands.lean ====
section
/-! DEFINITION. The fields of the records and commands that cross the Page Stream Link: byte positions, byte order and signs (00_scope, Byte
order and layouts), and the codes of their enumerations. Positions count from the header's first byte, as the manual's tables do. -/

namespace Sys2Proof.Machine

open Sys2Proof

/-! ### Reading fields -/

/-- The record's whole length, header included (1.2). -/
def Record.length (r : Record) : Nat := r.body.length + 4

/-- Byte `i` of the record, `i ≥ 4`. -/
def Record.byte (r : Record) (i : Nat) : Byte := r.body.getD (i - 4) 0

/-- Unsigned fields of one, two and four bytes, little-endian. -/
def Record.u8 (r : Record) (i : Nat) : Nat := (r.byte i).toNat
def Record.u16 (r : Record) (i : Nat) : Nat := r.u8 i + 256 * r.u8 (i + 1)
def Record.u32 (r : Record) (i : Nat) : Nat := r.u16 i + 65536 * r.u16 (i + 2)

/-- A two's complement number of `2 * half` values. -/
def signed (half n : Nat) : Int := if n < half then (n : Int) else (n : Int) - 2 * (half : Int)

/-- Signed fields of one and two bytes. -/
def Record.i8 (r : Record) (i : Nat) : Int := signed 128 (r.u8 i)
def Record.i16 (r : Record) (i : Nat) : Int := signed 32768 (r.u16 i)

/-! ### Writing fields -/

/-- One, two and four bytes of a number, little-endian. -/
def le8 (n : Nat) : List Byte := [BitVec.ofNat 8 n]
def le16 (n : Nat) : List Byte := [BitVec.ofNat 8 n, BitVec.ofNat 8 (n / 256)]
def le32 (n : Nat) : List Byte := le16 n ++ le16 (n / 65536)

/-- Two and four bytes of a signed number, two's complement. -/
def leInt16 (z : Int) : List Byte := le16 (z % 65536).toNat
def leInt32 (z : Int) : List Byte := le32 (z % 4294967296).toNat

/-- A flag as a bit of the given weight. -/
def bitOf (b : Bool) (weight : Nat) : Nat := if b then weight else 0

/-! ### Record kinds (1.3) -/

abbrev kindPageOpen : Byte := 0x01
abbrev kindPageClose : Byte := 0x02
abbrev kindParaStart : Byte := 0x03
abbrev kindParaEnd : Byte := 0x04
abbrev kindTextRun : Byte := 0x05
abbrev kindFaceSelect : Byte := 0x06
abbrev kindStylePush : Byte := 0x07
abbrev kindStylePop : Byte := 0x08
abbrev kindBaselineShift : Byte := 0x09
abbrev kindNoteOpen : Byte := 0x0A
abbrev kindNoteClose : Byte := 0x0B
abbrev kindFaceLoad : Byte := 0x10
abbrev kindFaceUnload : Byte := 0x11
abbrev kindTableBegin : Byte := 0x12
abbrev kindGlyphDefine : Byte := 0x13
abbrev kindTableEnd : Byte := 0x14
abbrev kindTableDrop : Byte := 0x15
abbrev kindParamSet : Byte := 0x18
abbrev kindPageShow : Byte := 0x40
abbrev kindPageDrop : Byte := 0x41
abbrev kindNotePaint : Byte := 0x42
abbrev kindNoteErase : Byte := 0x43
abbrev kindRefreshRequest : Byte := 0x44
abbrev kindEventAck : Byte := 0x45
abbrev kindQuery : Byte := 0x46
abbrev kindStreamReset : Byte := 0x47
abbrev kindPanelReset : Byte := 0x48

/-- The stream kinds the table of 1.3 assigns. -/
def streamKinds : List Byte :=
  [kindPageOpen, kindPageClose, kindParaStart, kindParaEnd, kindTextRun, kindFaceSelect, kindStylePush, kindStylePop,
   kindBaselineShift, kindNoteOpen, kindNoteClose, kindFaceLoad, kindFaceUnload, kindTableBegin, kindGlyphDefine, kindTableEnd,
   kindTableDrop, kindParamSet]

/-- The fixed length of an assigned command kind (1.3); none for a kind that is no command. -/
def commandLength (kind : Byte) : Option Nat :=
  if kind = kindPageShow then some 4
  else if kind = kindPageDrop then some 4
  else if kind = kindNotePaint then some 12
  else if kind = kindNoteErase then some 6
  else if kind = kindRefreshRequest then some 9
  else if kind = kindEventAck then some 6
  else if kind = kindQuery then some 8
  else if kind = kindStreamReset then some 4
  else if kind = kindPanelReset then some 4
  else none

/-! ### Enumerated fields -/

/-- PARA_START's alignment byte (4.2). -/
def alignmentOf : Nat → Option Alignment
  | 0 => some .justify
  | 1 => some .left
  | 2 => some .right
  | 3 => some .center
  | _ => none

/-- NOTE_OPEN's and NOTE_PAINT's style byte (7.2). -/
def styleOf : Nat → Option NoteStyle
  | 0 => some .shade
  | 1 => some .underline
  | 2 => some .doubleUnderline
  | 3 => some .marginBar
  | _ => none

def NoteStyle.code : NoteStyle → Nat
  | .shade => 0
  | .underline => 1
  | .doubleUnderline => 2
  | .marginBar => 3

/-- REFRESH_REQUEST's mode byte (9.7), and the mode byte of an UPDATE frame (10.2). -/
def modeOf : Nat → Option Mode
  | 0 => some .full
  | 1 => some .grey
  | 2 => some .fast
  | _ => none

def Mode.code : Mode → Nat
  | .full => 0
  | .grey => 1
  | .fast => 2

/-- The source codes of the LANES reply (R191). -/
def Source.code : Source → Nat
  | .flip => 0
  | .paint => 1
  | .request => 2
  | .settle => 3
  | .cleanup => 4

/-- The plane selector of LINE and NOTE queries (R189). -/
def planeOf : Nat → Option PlaneId
  | 0 => some .a
  | 1 => some .b
  | _ => none

def PlaneId.code : PlaneId → Nat
  | .a => 0
  | .b => 1

/-- The entry classes of 4.2 that a rule names; every other class byte but BREAK_AFTER is treated as ORDINARY. -/
abbrev clsSpace : Nat := 1
abbrev clsNbspace : Nat := 2
abbrev clsSoftHyphen : Nat := 3
abbrev clsBreakAfter : Nat := 4
abbrev clsLineBreak : Nat := 5

/-- R48: ORDINARY, BREAK_AFTER and classes 6..255 are drawn glyph entries, looked up. -/
def isGlyphClass (cls : Nat) : Bool := cls == 0 || cls == clsBreakAfter || cls ≥ 6

/-- A number clamped to a range (00_scope, Ranges, refusals and clamps). -/
def clampNat (lo hi n : Nat) : Nat := if n < lo then lo else if hi < n then hi else n
def clampInt (lo hi n : Int) : Int := if n < lo then lo else if hi < n then hi else n

end Sys2Proof.Machine
end

