-- ==== Sys2Proof/Machine/Flags.lean ====
section
/-! DEFINITION. Events: the sixteen edge flags (R184), the first-fault detail slots (R186), the level events (R185) and ATTN_N (R187). -/

namespace Sys2Proof.Machine

open Sys2Proof

/-! ### Named updates of the state, one per block (their lemmas: Laws/State.lean) -/

def State.setPending (s : State) (x : List Instr) : State := { s with pending := x }
def State.setLink (s : State) (x : Link) : State := { s with link := x }
def State.setRing (s : State) (x : List Record) : State := { s with ring := x }
def State.setCmd (s : State) (x : CommandUnit) : State := { s with cmd := x }
def State.setFaces (s : State) (x : FaceTable) : State := { s with faces := x }
def State.setGlyphs (s : State) (x : Vector GlyphTable 16) : State := { s with glyphs := x }
def State.setComp (s : State) (x : Composer) : State := { s with comp := x }
def State.setPlanes (s : State) (x : Planes) : State := { s with planes := x }
def State.setNotes (s : State) (x : NoteUnit) : State := { s with notes := x }
def State.setPlanner (s : State) (x : Planner) : State := { s with planner := x }
def State.setLanes (s : State) (x : LaneController) : State := { s with lanes := x }
def State.setTick (s : State) (x : Tick) : State := { s with tick := x }
def State.setEvents (s : State) (x : EventUnit) : State := { s with events := x }
def State.setParams (s : State) (x : Params) : State := { s with params := x }

/-! ### Edge events -/

/-- The edge events of 11.1. -/
inductive EdgeEvent where
  | pageReady
  | pageFull
  | pageShown
  | sequenceError
  | recordError
  | faceFault
  | glyphMissing
  | tableFault
  | styleStackError
  | noteFault
  | framingError
  | intakeOverrun
  | commandRefused
  | updateFailed
  | lateDone
  | paramClamped
  deriving DecidableEq, Repr

/-- The bit of an edge event in the digest, the acknowledge set and the mask (11.1). -/
def EdgeEvent.bit : EdgeEvent → Nat
  | .pageReady => 0
  | .pageFull => 1
  | .pageShown => 2
  | .sequenceError => 3
  | .recordError => 4
  | .faceFault => 5
  | .glyphMissing => 6
  | .tableFault => 7
  | .styleStackError => 8
  | .noteFault => 9
  | .framingError => 10
  | .intakeOverrun => 11
  | .commandRefused => 12
  | .updateFailed => 13
  | .lateDone => 14
  | .paramClamped => 15

/-- Whether the flag of an edge event is set. -/
def EventUnit.has (u : EventUnit) (e : EdgeEvent) : Bool := u.flags.getLsbD e.bit

/-- R184: the flag becomes, or stays, set. -/
def EventUnit.mark (u : EventUnit) (e : EdgeEvent) : EventUnit := { u with flags := u.flags ||| BitVec.twoPow 16 e.bit }

/-- R186: an empty slot takes the detail; a held detail stays and gains the more mark. -/
def putDetail {ρ : Type} (slot : Option (Detail ρ)) (reason : ρ) (kind tag : Byte) (value ordinal : Nat) : Option (Detail ρ) :=
  match slot with
  | none => some { reason, kind, tag, value, ordinal, more := false }
  | some d => some { d with more := true }

/-- An edge event that keeps no detail is raised. -/
def State.raise (s : State) (e : EdgeEvent) : State := s.setEvents (s.events.mark e)

/-- An edge event is raised if the condition holds. -/
def State.raiseIf (s : State) (c : Bool) (e : EdgeEvent) : State := if c then s.raise e else s

/-- FACE_FAULT with its detail (R18, R186). -/
def State.faceFault (s : State) (reason : FaceReason) (r : Record) (handle ordinal : Nat) : State :=
  s.setEvents { s.events.mark .faceFault with face := putDetail s.events.face reason r.kind r.tag handle ordinal }

/-- GLYPH_MISSING with its detail (R49, R186). -/
def State.glyphMissing (s : State) (reason : GlyphReason) (r : Record) (code ordinal : Nat) : State :=
  s.setEvents { s.events.mark .glyphMissing with glyph := putDetail s.events.glyph reason r.kind r.tag code ordinal }

/-- TABLE_FAULT with its detail (R46, R186). -/
def State.tableFault (s : State) (reason : TableReason) (r : Record) (id ordinal : Nat) : State :=
  s.setEvents { s.events.mark .tableFault with table := putDetail s.events.table reason r.kind r.tag id ordinal }

/-- NOTE_FAULT with its detail (R121, R186). -/
def State.noteFault (s : State) (reason : NoteReason) (r : Record) (id ordinal : Nat) : State :=
  s.setEvents { s.events.mark .noteFault with note := putDetail s.events.note reason r.kind r.tag id ordinal }

/-- COMMAND_REFUSED with its detail (R3, R108, R126, R164, R186). -/
def State.commandRefused (s : State) (reason : CommandReason) (kind tag : Byte) (value ordinal : Nat) : State :=
  s.setEvents { s.events.mark .commandRefused with command := putDetail s.events.command reason kind tag value ordinal }

/-- R188 and R186: the named flags are cleared, and the slots of named events are emptied. -/
def EventUnit.acknowledge (u : EventUnit) (ack : BitVec 16) : EventUnit :=
  { flags   := u.flags &&& ~~~ ack
    face    := if ack.getLsbD EdgeEvent.faceFault.bit then none else u.face
    glyph   := if ack.getLsbD EdgeEvent.glyphMissing.bit then none else u.glyph
    table   := if ack.getLsbD EdgeEvent.tableFault.bit then none else u.table
    note    := if ack.getLsbD EdgeEvent.noteFault.bit then none else u.note
    command := if ack.getLsbD EdgeEvent.commandRefused.bit then none else u.command }

/-! ### Detail codes (R186) -/

def FaceReason.code : FaceReason → Nat
  | .range => 1
  | .absent => 2
  | .inUse => 3
  | .tableNotReady => 4
  | .badEntry => 5
  | .nullFace => 6

def GlyphReason.code : GlyphReason → Nat
  | .outOfRange => 1
  | .undefined => 2

def TableReason.code : TableReason → Nat
  | .range => 1
  | .notEmpty => 2
  | .noRoom => 3
  | .notLoading => 4
  | .inUse => 5
  | .field => 6
  | .order => 7
  | .count => 8
  | .overfill => 9
  | .bitmap => 10

def NoteReason.code : NoteReason → Nat
  | .badId => 1
  | .duplicate => 2
  | .openFull => 3
  | .listFull => 4
  | .notOpen => 5

def CommandReason.code : CommandReason → Nat
  | .unknownKind => 1
  | .badLength => 2
  | .queueFull => 3
  | .nothingReady => 4
  | .noPage => 5
  | .badId => 6
  | .badStyle => 7
  | .range => 8
  | .listFull => 9
  | .unknown => 10
  | .superseded => 11
  | .badMode => 12

/-! ### Level events and ATTN_N -/

/-- Bytes of the ring reserved for the stream record arriving (1.4). -/
def Framing.reserved : Framing → Nat
  | .bodyStream _ _ len _ => len
  | .between | .header _ | .bodyCommand _ _ _ _ | .skipCommand _ | .skipRest => 0

/-- R185: the ring holds no record and no reservation. A record the Composer is finishing still stands at the ring's head. -/
def intakeEmpty (s : State) : Bool := s.ring.isEmpty && s.link.framing.reserved == 0

/-- R185: the Composer is in WAIT_PLANE. -/
def ComposerState.waiting : ComposerState → Bool
  | .waitPlane _ => true
  | .idle | .composing => false

/-- R181. -/
def laneFault (l : LaneController) : Bool := l.lane.toList.any fun x => x.state == .faulted
def panelStall (l : LaneController) : Bool := l.lane.toList.all fun x => x.state == .faulted

/-- Byte 7 of the digest (R14, R185). -/
def levelFlags (s : State) : BitVec 4 :=
  BitVec.ofNat 4 (bitOf (intakeEmpty s) 1 + bitOf s.comp.state.waiting 2 + bitOf (laneFault s.lanes) 4 + bitOf (panelStall s.lanes) 8)

/-- R187: ATTN_N is driven low. -/
def attnLow (s : State) : Bool :=
  s.events.flags &&& s.params.edgeMask != 0 || levelFlags s &&& s.params.levelMask != 0

end Sys2Proof.Machine
end

