-- ==== Sys2Proof/Machine/Ops.lean ====
section
/-! DEFINITION. The shared operations over the blocks' data: sets and indexed lists, the two planes, the Intake Ring and Command Queue counts,
face use counts, tile rectangles, and taking a record or a command. -/

namespace Sys2Proof.Machine

open Sys2Proof

/-! ### Lists -/

/-- A number joins a set kept as a rising list without repeats. -/
def insertNat (x : Nat) : List Nat → List Nat
  | [] => [x]
  | y :: t => if x < y then x :: y :: t else if x = y then y :: t else y :: insertNat x t

/-- The member at a position is replaced by its image. -/
def modifyAt {α : Type} (f : α → α) : Nat → List α → List α
  | _, [] => []
  | 0, x :: t => f x :: t
  | n + 1, x :: t => x :: modifyAt f n t

/-- The member at a position is taken out. -/
def removeAt {α : Type} : Nat → List α → List α
  | _, [] => []
  | 0, _ :: t => t
  | n + 1, x :: t => x :: removeAt n t

/-- Each member becomes the image of its position and itself. -/
def mapFrom {α : Type} (f : Nat → α → α) : Nat → List α → List α
  | _, [] => []
  | i, x :: t => f i x :: mapFrom f (i + 1) t

theorem mapFrom_length {α : Type} (f : Nat → α → α) (i : Nat) (l : List α) : (mapFrom f i l).length = l.length := by
  induction l generalizing i with
  | nil => rfl
  | cons x t ih => simp [mapFrom, ih]

/-- The same on a vector. -/
def mapVector {α : Type} {n : Nat} (f : Nat → α → α) (v : Vector α n) : Vector α n :=
  ⟨⟨mapFrom f 0 v.toList⟩, by simp [mapFrom_length]⟩

/-- The positions, counted from `i`, of the members that satisfy `p`, in rising order. -/
def positionsFrom {α : Type} (p : α → Bool) : Nat → List α → List Nat
  | _, [] => []
  | i, x :: t => if p x then i :: positionsFrom p (i + 1) t else positionsFrom p (i + 1) t

/-! ### Tiles and rectangles (00_scope, Tiles) -/

/-- The column and row of a tile index. -/
def tileColumn (i : Nat) : Nat := i % Config.tileColumns
def tileRow (i : Nat) : Nat := i / Config.tileColumns

/-- A tile lies in a rectangle. -/
def Rect.has (q : Rect) (i : Nat) : Bool :=
  q.c0 ≤ tileColumn i && tileColumn i ≤ q.c1 && q.r0 ≤ tileRow i && tileRow i ≤ q.r1

/-- Two rectangles share a tile. -/
def Rect.meets (p q : Rect) : Bool :=
  p.c0 ≤ q.c1 && q.c0 ≤ p.c1 && p.r0 ≤ q.r1 && q.r0 ≤ p.r1

/-- The bounding box of two rectangles. -/
def Rect.join (p q : Rect) : Rect :=
  { c0 := min p.c0 q.c0, r0 := min p.r0 q.r0, c1 := max p.c1 q.c1, r1 := max p.r1 q.r1 }

/-- The rectangle of one tile. -/
def Rect.ofTile (i : Nat) : Rect := { c0 := tileColumn i, r0 := tileRow i, c1 := tileColumn i, r1 := tileRow i }

/-- The bounding box of a set of tiles; none for the empty set. -/
def boundingBox : List Nat → Option Rect
  | [] => none
  | i :: t => match boundingBox t with
    | none => some (Rect.ofTile i)
    | some q => some ((Rect.ofTile i).join q)

/-- All 1,200 tiles. -/
def wholePanel : Rect := { c0 := 0, r0 := 0, c1 := 29, r1 := 39 }

/-! ### Planes (6.1) -/

def PlaneId.other : PlaneId → PlaneId
  | .a => .b
  | .b => .a

def Planes.get (p : Planes) : PlaneId → Plane
  | .a => p.a
  | .b => p.b

def Planes.set (p : Planes) (i : PlaneId) (x : Plane) : Planes :=
  match i with
  | .a => { p with a := x }
  | .b => { p with b := x }

/-- The part a plane plays; none when it is FREE. -/
def Plane.part (x : Plane) : Option Part := x.held.map (·.part)

/-- The plane that plays a part. By R96 at most one plane is COMPOSING, READY, SHOWN or RETIRING at a time. -/
def Planes.find (p : Planes) (part : Part) : Option PlaneId :=
  if p.a.part = some part then some .a else if p.b.part = some part then some .b else none

/-- The plane that plays a part, with its page. -/
def Planes.pageOf (p : Planes) (part : Part) : Option (PlaneId × Page) :=
  match p.find part with
  | none => none
  | some i => (p.get i).held.map fun h => (i, h.page)

/-- The page of a plane is replaced; a FREE plane has none to replace. -/
def Planes.setPage (p : Planes) (i : PlaneId) (page : Page) : Planes :=
  p.set i { p.get i with held := (p.get i).held.map fun h => { h with page := page } }

/-- A plane that holds a page changes its part. -/
def Planes.setPart (p : Planes) (i : PlaneId) (part : Part) : Planes :=
  p.set i { p.get i with held := (p.get i).held.map fun h => { h with part := part } }

/-- The pixels of a plane are replaced. -/
def Planes.setPixels (p : Planes) (i : PlaneId) (x : Pixels) : Planes :=
  p.set i { p.get i with pixels := x }

/-- R111: a plane becomes FREE. Its page record and face set are discarded and its pixels stay. -/
def Planes.free (p : Planes) (i : PlaneId) : Planes :=
  p.set i { p.get i with held := none }

/-- The digest code of a plane's state (R14, R96). -/
def Plane.code (x : Plane) : Nat :=
  match x.part with
  | none => 0
  | some .composing => 1
  | some .ready => 2
  | some .shown => 3
  | some .retiring => 4

/-- R98: a plane is available when it is FREE and the other is neither COMPOSING nor READY. -/
def Planes.availableAt (p : Planes) (i : PlaneId) : Bool :=
  (p.get i).part == none && (p.get i.other).part != some .composing && (p.get i.other).part != some .ready

/-- R98: the plane that would be granted; plane A when both are FREE. -/
def Planes.available (p : Planes) : Option PlaneId :=
  if p.availableAt .a then some .a else if p.availableAt .b then some .b else none

/-- The page being composed, with its plane. -/
def State.composingPage (s : State) : Option (PlaneId × Page) := s.planes.pageOf .composing

/-- The page on the panel, with its plane. -/
def State.frontPage (s : State) : Option (PlaneId × Page) := s.planes.pageOf .shown

/-- The page record of the plane being composed is rewritten. -/
def State.mapComposingPage (s : State) (f : Page → Page) : State :=
  match s.composingPage with
  | none => s
  | some (i, page) => s.setPlanes (s.planes.setPage i (f page))

/-! ### Intake Ring and Command Queue (1.4, 1.5) -/

/-- The bytes held by the records of a ring. -/
def ringBytes (ring : List Record) : Nat := (ring.map Record.length).sum

/-- 1.4: fill is the bytes held by records, plus the bytes reserved for the one arriving. -/
def fill (s : State) : Nat := ringBytes s.ring + s.link.framing.reserved

/-- 1.4: free is the rest. -/
def freeBytes (s : State) : Nat := Config.ringBytes - fill s

/-- A command is arriving into a reserved slot. -/
def Framing.reservesSlot : Framing → Bool
  | .bodyCommand _ _ _ _ => true
  | .between | .header _ | .bodyStream _ _ _ _ | .skipCommand _ | .skipRest => false

/-- Slots that are queued, executing or reserved (1.5). -/
def slotsTaken (s : State) : Nat :=
  s.cmd.queued.length + (if s.cmd.executing.isSome then 1 else 0) + (if s.link.framing.reservesSlot then 1 else 0)

/-- Slots in the condition free (1.5). -/
def freeSlots (s : State) : Nat := Config.commandSlots - slotsTaken s

/-- R7: the finished record leaves the head of the ring with its bytes. -/
def State.release (s : State) : State := s.setRing s.ring.tail

/-- R53: the record at the head of the ring that the Composer may take: it is not in WAIT_PLANE, no stream hold lasts, and no carried entry is
left to re-append (R76). -/
def State.takable (s : State) : Option Record :=
  if s.comp.state.waiting || s.cmd.streamHold != 0 || !s.comp.carry.isEmpty then none else s.ring.head?

/-- The record at the head, if the Composer may take it and it is of the kind named. -/
def State.headOf (s : State) (kind : Byte) : Option Record := s.takable.filter fun r => r.kind == kind

/-- R54: a record of an assigned kind is judged by its length, and a content record other than PAGE_OPEN by the Composer's being IDLE; what passes
goes to the rule of its kind. A turn of the Composer that finds no such record at the head changes nothing (R53). -/
def takeRecord (s : State) (kind : Byte) (lengthOk : Nat → Bool) (content : Bool) (rule : Record → State) : State :=
  match s.headOf kind with
  | none => s
  | some r =>
    if !lengthOk r.length then (s.raise .recordError).release
    else if content && s.comp.state == .idle then (s.raise .sequenceError).release
    else rule r

/-- R9: the oldest queued command, if the Command Unit is IDLE and the command is of the kind named. -/
def State.commandOf (s : State) (kind : Byte) : Option Record :=
  if s.cmd.executing.isSome then none else s.cmd.queued.head?.filter fun r => r.kind == kind

/-- The command taken leaves the queue. Its slot is executing until the command ends, in this same event unless a re-render is held (R9). -/
def State.dequeue (s : State) : State := s.setCmd { s.cmd with queued := s.cmd.queued.tail }

/-! ### Faces and their use counts (2.1, 2.4) -/

/-- The fields of a handle's entry; none for an absent entry, for handle 0 and above 31. -/
def FaceTable.face (t : FaceTable) (h : Nat) : Option Face :=
  if h = 0 then none else t.entries[h]?.join

/-- The entry of a handle becomes present with these fields, or absent. -/
def FaceTable.setFace (t : FaceTable) (h : Nat) (f : Option Face) : FaceTable :=
  if hh : h < 32 then { t with entries := t.entries.set h f } else t

/-- The face set of a plane (2.1): empty while the plane is FREE. -/
def Plane.faceSet (x : Plane) : List Nat :=
  match x.held with
  | none => []
  | some h => h.page.faceSet

/-- R22: the use count of a handle. -/
def useCount (s : State) (h : Nat) : Nat :=
  if h = 0 then 0 else
    (if s.faces.current = h then 1 else 0) + (s.faces.stack.filter fun e => e.1 == h).length
      + (if s.planes.a.faceSet.contains h then 1 else 0) + (if s.planes.b.faceSet.contains h then 1 else 0)

/-! ### Glyph tables (chapter 3) -/

/-- A table by its id 0..15. -/
def State.tableAt (s : State) (id : Nat) : Option GlyphTable := s.glyphs[id]?

/-- A table record is rewritten. -/
def State.setTable (s : State) (id : Nat) (t : GlyphTable) : State :=
  if h : id < 16 then s.setGlyphs (s.glyphs.set id t) else s

/-- The glyph record with a code (R48: at most one matches). -/
def GlyphTable.find (t : GlyphTable) (code : Nat) : Option Glyph := t.glyphs.find? fun g => g.code == code

/-- 3.2: the code of the newest glyph record. -/
def GlyphTable.lastCode (t : GlyphTable) : Option Nat := t.glyphs.getLast?.map (·.code)

/-- R35: the sum of the budgets. A table that is EMPTY has budget 0. -/
def reservedTotal (s : State) : Nat := (s.glyphs.toList.map (·.budget)).sum

/-- R51: the kern matrix's value at a row and column. -/
def GlyphTable.kernAt (t : GlyphTable) (l r : Nat) : Int := t.kern.getD (16 * l + r) 0

/-- The glyph record with a code in the table that a face names. -/
def State.glyphOf (s : State) (face code : Nat) : Option Glyph :=
  (s.faces.face face).bind fun f => (s.tableAt f.table).bind fun t => t.find code

/-- R50: the advance of the glyph of a face's hyphen code. -/
def State.hyphenAdvance (s : State) (face : Nat) : Nat :=
  match (s.faces.face face).bind fun f => s.glyphOf face f.hyphen with
  | none => 0
  | some g => g.advance

end Sys2Proof.Machine
end

