-- ==== Sys2Proof/Machine/Pixels.lean ====
section
/-! DEFINITION. The pixel store of a plane: 1680 × 2240 levels, kept in one canonical form (addresses strictly rising, an unlisted pixel is
paper, no listed pixel is paper), so that planes with equal pixels are equal data. -/

namespace Sys2Proof.Machine

open Sys2Proof

/-- The address of the pixel in column `x` and row `y`. -/
def pixelAddr (x y : Nat) : Nat := y * Config.panelWidth + x

/-- The level at an address; an unlisted pixel is paper. -/
def Pixels.get : Pixels → Nat → Level
  | [], _ => paper
  | (a, v) :: t, k => if a = k then v else Pixels.get t k

/-- The level at an address becomes `v`; paper is never listed. -/
def Pixels.put : Pixels → Nat → Level → Pixels
  | [], k, v => if v = paper then [] else [(k, v)]
  | (a, w) :: t, k, v =>
    if k < a then (if v = paper then (a, w) :: t else (k, v) :: (a, w) :: t)
    else if k = a then (if v = paper then t else (k, v) :: t)
    else (a, w) :: Pixels.put t k v

/-- The level at an address becomes its image. -/
def Pixels.modify (px : Pixels) (k : Nat) (f : Level → Level) : Pixels := px.put k (f (px.get k))

/-- The pixels at the addresses listed become their images, one after another. -/
def Pixels.modifyAll (f : Level → Level) : List Nat → Pixels → Pixels
  | [], px => px
  | k :: t, px => Pixels.modifyAll f t (px.modify k f)

/-- Every pixel of rows `lo` to `hi - 1` becomes paper. -/
def Pixels.clearRows (px : Pixels) (lo hi : Nat) : Pixels :=
  px.filter fun p => p.1 < lo * Config.panelWidth || hi * Config.panelWidth ≤ p.1

/-- The canonical form: addresses strictly rising and inside the plane, and no pixel listed as paper. -/
def Pixels.wf (px : Pixels) : Prop :=
  px.Pairwise (fun p q => p.1 < q.1) ∧ ∀ p ∈ px, p.2 ≠ paper ∧ p.1 < Config.panelWidth * Config.panelHeight

/-- The addresses of the columns listed in rows `lo` to `hi - 1`. -/
def addrsOf (columns : List Nat) (lo hi : Nat) : List Nat :=
  (List.range' lo (hi - lo)).flatMap fun y => columns.map fun x => pixelAddr x y

/-- The levels that a rectangle of tiles carries in a mode (R149): as the plane holds them for FULL and GREY; for FAST, 15 at or above the
threshold and 0 below it. Levels of 15 are not listed. -/
def frameLevels (mode : Mode) (threshold : Nat) (q : Rect) (px : Pixels) : Pixels :=
  let inside := px.filter fun p =>
    let x := p.1 % Config.panelWidth
    let y := p.1 / Config.panelWidth
    q.c0 * Config.tileSide ≤ x && x < (q.c1 + 1) * Config.tileSide && q.r0 * Config.tileSide ≤ y && y < (q.r1 + 1) * Config.tileSide
  match mode with
  | .full => inside
  | .grey => inside
  | .fast => (inside.filter fun p => p.2.val < threshold).map fun p => (p.1, 0)

/-- The bytes of an UPDATE frame (10.2): the eight header bytes, then rows top to bottom, two pixels a byte, the left one in the high bits. -/
def updateFrameBytes (lane : Fin 4) (seq : BitVec 8) (mode : Mode) (q : Rect) (levels : Pixels) : List Byte :=
  [0xA1] ++ le8 lane.val ++ [seq] ++ le8 mode.code ++ le8 q.c0 ++ le8 q.r0 ++ le8 q.c1 ++ le8 q.r1 ++
  (List.range' (q.r0 * Config.tileSide) ((q.r1 + 1 - q.r0) * Config.tileSide)).flatMap fun y =>
    (List.range ((q.c1 + 1 - q.c0) * (Config.tileSide / 2))).map fun i =>
      let x := q.c0 * Config.tileSide + 2 * i
      BitVec.ofNat 8 (16 * (levels.get (pixelAddr x y)).val + (levels.get (pixelAddr (x + 1) y)).val)

/-- The bytes an item puts on PNL_TX; a cut frame counts for nothing (R182: the timing controller discards it). -/
def TxItem.bytes : TxItem → List Byte
  | .update lane seq mode q levels => updateFrameBytes lane seq mode q levels
  | .cut _ _ => []
  | .abort => [0xA2]

end Sys2Proof.Machine
end

