-- ==== Sys2Proof/Machine/Raster.lean ====
section
/-! DEFINITION. The Raster Engine (chapter 8): a line's band is drawn by five steps, paper, shades, glyphs, underlines, margin bars. It has no state; it
reads a page, the faces and glyph tables, and the shade floor, and writes a plane's pixels. -/

namespace Sys2Proof.Machine

open Sys2Proof

/-- R95: the first row of a line's band, and the row after its last, clamped to the plane. -/
def Line.bandLo (l : Line) : Nat := min (l.baseline - l.ascent) Config.panelHeight
def Line.bandHi (l : Line) : Nat := min (l.baseline + l.descent + l.gap) Config.panelHeight

/-- R122: a CLOSED note covers its start to its end; an OPEN one covers every ordinal from its start on. -/
def Note.covers (n : Note) (ordinal : Nat) : Bool :=
  n.start ≤ ordinal && (match n.stop with
    | none => true
    | some e => ordinal ≤ e)

/-- The note covers at least one of a line's ordinals. -/
def Note.coversLine (n : Note) (l : Line) : Bool :=
  0 < l.count && n.start < l.first + l.count && (match n.stop with
    | none => true
    | some e => l.first ≤ e && n.start ≤ e)

/-- The placements of a line (R97). -/
def Page.placementsOf (page : Page) (l : Line) : List Placement := (page.placements.drop l.first).take l.count

/-- The trailing SPACE entries of a reversed list are hanging; the others are not. -/
def markTrailing {α : Type} (cls : α → Nat) : List α → List (α × Bool)
  | [] => []
  | x :: t => if cls x = clsSpace then (x, true) :: markTrailing cls t else (x :: t).map fun y => (y, false)

/-- R64 and R67: each entry of a line with whether it is a hanging space: the SPACE entries at the line's end, or directly before the LINE_BREAK
that ends it. -/
def markHanging {α : Type} (cls : α → Nat) (line : List α) : List (α × Bool) :=
  match line.reverse with
  | [] => []
  | x :: t =>
    if cls x = clsLineBreak then ((x, false) :: markTrailing cls t).reverse else (markTrailing cls (x :: t)).reverse

/-- R140: the adjusted advance of a line's last entry. It is never an adjustable space, since trailing spaces hang: a drawn glyph (a taken
SOFT_HYPHEN among them) has its glyph's advance, an NBSPACE its face's space advance, any other entry 0. -/
def lastAdvance (s : State) (p : Placement) : Nat :=
  if p.drawn then ((s.glyphOf p.face p.code).map (·.advance)).getD 0
  else if p.cls = clsNbspace then ((s.faces.face p.face).map (·.space)).getD 0
  else 0

/-- R140: the boxes of a line's entries that can be marked: ordinal, first column, column after the last. -/
def entryBoxes (s : State) : List (Placement × Bool) → List (Nat × Int × Int)
  | [] => []
  | [(p, h)] => if h then [] else [(p.ordinal, p.x, p.x + ((lastAdvance s p : Int) + 32) / 64)]
  | (p, h) :: (q, k) :: t =>
    if h then entryBoxes s ((q, k) :: t) else (p.ordinal, p.x, q.x) :: entryBoxes s ((q, k) :: t)

/-- R141: the columns of the marked area of a note on a line, each once. -/
def markedColumns (n : Note) (boxes : List (Nat × Int × Int)) : List Nat :=
  let covered := boxes.filter fun b => n.covers b.1 && b.2.1 < b.2.2
  if covered.isEmpty then [] else
  (List.range Config.panelWidth).filter fun x => covered.any fun b => b.2.1 ≤ (x : Int) && (x : Int) < b.2.2

/-- R142: a pixel under one shade. -/
def shadeLevel (floor tone : Nat) (v : Level) : Level := Fin.ofNat 16 (max floor (v.val - tone))

/-- R144: a pixel under ink of coverage `c`. -/
def inkLevel (c : Level) (v : Level) : Level := Fin.ofNat 16 (v.val - (2 * v.val * c.val + 15) / 30)

/-- R145: a pixel under an underline. -/
def underlineLevel (v : Level) : Level := min v 3

/-- R143: the pixels of a bitmap, row by row, from its position `i` on; those outside the band or the plane are skipped (R138). -/
def drawCoverage (x0 y0 : Int) (width lo hi : Nat) : Nat → List Level → Pixels → Pixels
  | _, [], px => px
  | i, c :: t, px =>
    let x := x0 + ((i % width : Nat) : Int)
    let y := y0 + ((i / width : Nat) : Int)
    let px' :=
      if 0 ≤ x && x < (Config.panelWidth : Int) && (lo : Int) ≤ y && y < (hi : Int) then
        px.modify (pixelAddr x.toNat y.toNat) (inkLevel c)
      else px
    drawCoverage x0 y0 width lo hi (i + 1) t px'

/-- R143: a drawn placement's glyph is laid at its column and row. -/
def drawGlyph (s : State) (l : Line) (px : Pixels) (p : Placement) : Pixels :=
  if !p.drawn then px else
  match s.glyphOf p.face p.code with
  | none => px
  | some g => drawCoverage (p.x + g.bearing) ((l.baseline : Int) - p.shift - g.top) g.width l.bandLo l.bandHi 0 g.coverage px

/-- R142: one SHADE note. -/
def drawShade (s : State) (l : Line) (boxes : List (Nat × Int × Int)) (px : Pixels) (n : Note) : Pixels :=
  if n.style = .shade then
    px.modifyAll (shadeLevel s.params.shadeFloor n.tone) (addrsOf (markedColumns n boxes) l.bandLo l.bandHi)
  else px

/-- R145: an underline row of a note, if it lies in the band. -/
def drawUnderlineRow (l : Line) (columns : List Nat) (y : Nat) (px : Pixels) : Pixels :=
  if l.bandLo ≤ y && y < l.bandHi then px.modifyAll underlineLevel (addrsOf columns y (y + 1)) else px

/-- R145: one UNDERLINE or DOUBLE_UNDERLINE note. -/
def drawUnderline (l : Line) (boxes : List (Nat × Int × Int)) (px : Pixels) (n : Note) : Pixels :=
  match n.style with
  | .underline => drawUnderlineRow l (markedColumns n boxes) (l.baseline + 3) (drawUnderlineRow l (markedColumns n boxes) (l.baseline + 2) px)
  | .doubleUnderline => drawUnderlineRow l (markedColumns n boxes) (l.baseline + 5) (drawUnderlineRow l (markedColumns n boxes) (l.baseline + 2) px)
  | .shade => px
  | .marginBar => px

/-- R146: the columns of a margin bar. -/
def barColumns (left : Nat) : List Nat := if 12 ≤ left then [left - 12, left - 11, left - 10] else [0, 1, 2]

/-- R146: one MARGIN_BAR note that covers an ordinal of the line. -/
def drawBar (page : Page) (l : Line) (px : Pixels) (n : Note) : Pixels :=
  if n.style = .marginBar && n.coversLine l then
    px.modifyAll (fun _ => 0) (addrsOf (barColumns page.frame.left) l.bandLo l.bandHi)
  else px

/-- R138: drawing a line of a page. -/
def drawLine (s : State) (page : Page) (px : Pixels) (l : Line) : Pixels :=
  let ps := page.placementsOf l
  let boxes := entryBoxes s (markHanging (·.cls) ps)
  let covering := page.notes.filter fun n => n.coversLine l
  let px := px.clearRows l.bandLo l.bandHi
  let px := covering.foldl (drawShade s l boxes) px
  let px := ps.foldl (drawGlyph s l) px
  let px := covering.foldl (drawUnderline l boxes) px
  covering.foldl (drawBar page l) px

end Sys2Proof.Machine
end

