-- ==== Sys2Proof/Machine/Layout.lean ====
section
/-! DEFINITION. Widths, the fit test, the choice of a break, and the placing of an ending line (chapters 4 and 5): pure arithmetic over entries. All
horizontal quantities are in su; Int division by a positive number is the floor that chapter 5 asks for. -/

namespace Sys2Proof.Machine

open Sys2Proof

def Entry.isSpace (e : Entry) : Bool := e.cls == clsSpace

/-- 4.3: a line's entries without its trailing SPACE entries. -/
def trimSpaces (es : List Entry) : List Entry := (es.reverse.dropWhile Entry.isSpace).reverse

/-! ### Widths (5.2) -/

/-- R79 and R80: the sum of the natural advances, and of the kern adjustments kept with entries other than the first. -/
def spanSum : Bool → List Entry → Int
  | _, [] => 0
  | isFirst, e :: t => (e.advance : Int) + (if isFirst then 0 else e.kern.getD 0) + spanSum false t

/-- R79: the natural width of a line's non-hanging entries; `hy` is the hyphen glyph's advance when the line ends at a taken SOFT_HYPHEN. -/
def naturalWidth (hy : Nat) (es : List Entry) : Int := spanSum true es + hy

/-! ### Spaces and the fit test (5.3) -/

/-- R81: the number of adjustable spaces among a line's non-hanging entries. -/
def spaceCount (es : List Entry) : Nat := (es.filter Entry.isSpace).length

/-- R81: the smallest of the caps floor(advance × k / 16), 0 without spaces. -/
def spaceLimit (k : Nat) (es : List Entry) : Nat :=
  match (es.filter Entry.isSpace).map fun e => e.advance * k / 16 with
  | [] => 0
  | c :: t => t.foldl min c

/-- R82: the fit test. -/
def fits (shrink : Nat) (measure : Int) (hy : Nat) (es : List Entry) : Bool :=
  naturalWidth hy es ≤ measure ||
  (0 < spaceCount es && naturalWidth hy es - measure ≤ ((spaceCount es * spaceLimit shrink es : Nat) : Int))

/-! ### Choosing a break (4.3) -/

/-- A chosen break: the buffer's first `len` entries stand before its place, and the flags of the line it ends. -/
structure Break where
  len        : Nat
  hyphenated : Bool
  forced     : Bool
  overwide   : Bool
  deriving DecidableEq, Repr

/-- R61: an entry that is neither a SPACE nor a SOFT_HYPHEN. -/
def Entry.isSolid (e : Entry) : Bool := !e.isSpace && e.cls != clsSoftHyphen

/-- R61 and R62: the break after the first `len` entries, if that place is a candidate and its line fits. `hyphen` gives a face's hyphen glyph
advance. -/
def candidateAt (shrink : Nat) (measure : Int) (hyphen : Nat → Nat) (es : List Entry) (len : Nat) : Option Break :=
  let upTo := es.take len
  match upTo.getLast? with
  | none => none
  | some e =>
    if !upTo.any Entry.isSolid then none
    else if e.cls = clsSpace then
      if fits shrink measure 0 (trimSpaces upTo) then some { len, hyphenated := false, forced := false, overwide := false } else none
    else if e.cls = clsSoftHyphen then
      if fits shrink measure (hyphen e.face) upTo then some { len, hyphenated := true, forced := false, overwide := false } else none
    else if e.cls = clsBreakAfter then
      if fits shrink measure 0 upTo then some { len, hyphenated := false, forced := false, overwide := false } else none
    else none

/-- R62: the scan, from the latest place to the earliest. -/
def scanBreaks (shrink : Nat) (measure : Int) (hyphen : Nat → Nat) (es : List Entry) : Nat → Option Break
  | 0 => none
  | n + 1 => match candidateAt shrink measure hyphen es (n + 1) with
    | some b => some b
    | none => scanBreaks shrink measure hyphen es n

/-- R63: the length of the longest prefix, of at most `n` entries and at least one, whose natural width is within the measure. -/
def forcedLength (measure : Int) (es : List Entry) : Nat → Nat
  | 0 => 1
  | n + 1 => if naturalWidth 0 (trimSpaces (es.take (n + 1))) ≤ measure then n + 1 else forcedLength measure es n

/-- R63: the forced break. A first entry wider than the measure on its own is forced alone. -/
def forcedBreak (measure : Int) (es : List Entry) : Break :=
  if naturalWidth 0 (trimSpaces (es.take 1)) ≤ measure then
    { len := forcedLength measure es es.length, hyphenated := false, forced := true, overwide := false }
  else { len := 1, hyphenated := false, forced := true, overwide := true }

/-- R60: the break of a pending line that does not fit. -/
def chooseBreak (shrink : Nat) (measure : Int) (hyphen : Nat → Nat) (pendingLine : List Entry) : Break :=
  match scanBreaks shrink measure hyphen pendingLine pendingLine.length with
  | some b => b
  | none => forcedBreak measure pendingLine

/-! ### The ending line -/

/-- An ending line: its entries with its hanging spaces, and what its commit needs to know of its making. `last` marks a last line (R84), `paraLast`
the flag PARA_LAST, which a LINE_BREAK does not set (R67). -/
structure EndingLine where
  entries    : List Entry
  hyphenated : Bool
  forced     : Bool
  overwide   : Bool
  last       : Bool
  paraLast   : Bool
  deriving DecidableEq, Repr

/-- R64: the entries up to the place of the break, and every SPACE entry that directly follows it. -/
def lineEnd (buffer : List Entry) (len : Nat) : Nat := len + ((buffer.drop len).takeWhile Entry.isSpace).length

/-- R64: the line that ends at a chosen break. -/
def brokenLine (buffer : List Entry) (b : Break) : EndingLine :=
  { entries := buffer.take (lineEnd buffer b.len), hyphenated := b.hyphenated, forced := b.forced, overwide := b.overwide,
    last := false, paraLast := false }

/-- R71 and R77: the whole buffer as the last line of its paragraph. -/
def lastLine (buffer : List Entry) : EndingLine :=
  { entries := buffer, hyphenated := false, forced := false, overwide := false, last := true, paraLast := true }

/-- R67: the whole buffer, ended by its LINE_BREAK. -/
def breakLine (buffer : List Entry) : EndingLine :=
  { entries := buffer, hyphenated := false, forced := false, overwide := false, last := true, paraLast := false }

/-- R68: the whole of a full buffer. -/
def fullLine (buffer : List Entry) : EndingLine :=
  { entries := buffer, hyphenated := false, forced := true, overwide := false, last := false, paraLast := false }

/-- The entries of a line that do not hang. -/
def EndingLine.core (l : EndingLine) : List Entry := ((markHanging (·.cls) l.entries).filter fun p => !p.2).map (·.1)

/-! ### Distributing slack (5.4) -/

/-- How a line's spaces and start are set (R84): the share of space `i`, the start offset, and the two flags. -/
structure Spread where
  /-- floor of the shares, with its sign -/
  each      : Int
  /-- the spaces numbered below this gain, or lose, one su more -/
  extra     : Nat
  /-- that one su, with its sign -/
  step      : Int
  offset    : Int
  justified : Bool
  loose     : Bool
  deriving DecidableEq, Repr

/-- What space `i` gains. -/
def Spread.share (p : Spread) (i : Nat) : Int := p.each + (if i < p.extra then p.step else 0)

/-- Spaces at their natural advances, from this offset. -/
def Spread.natural (offset : Int) : Spread := { each := 0, extra := 0, step := 0, offset, justified := false, loose := false }

/-- R88: the start offset of a line in case 4. -/
def startOffset (a : Alignment) (slack : Int) : Int :=
  match a with
  | .left => 0
  | .justify => 0
  | .right => slack
  | .center => slack / 2

/-- R84 to R89: the case of a line with slack `slack` and `n` adjustable spaces whose stretch limit is `ms`. -/
def spreadOf (overwide last : Bool) (a : Alignment) (slack : Int) (n ms : Nat) : Spread :=
  if overwide then Spread.natural 0
  else if slack < 0 then
    let d := (-slack).toNat
    { each := -((d / n : Nat) : Int), extra := d % n, step := -1, offset := 0, justified := true, loose := false }
  else if a = .justify && !last && 0 < n then
    let d := slack.toNat
    if (d + n - 1) / n ≤ ms then
      { each := ((d / n : Nat) : Int), extra := d % n, step := 1, offset := 0, justified := true, loose := false }
    else { each := (ms : Int), extra := 0, step := 0, offset := 0, justified := false, loose := true }
  else Spread.natural (startOffset a slack)

/-! ### Positions (5.5) -/

/-- R90: the position in su of each entry, in order: the entries with whether they hang, the line's hyphen advance (counted at its last entry
that does not hang), the next space's number, and the place where the next entry's span begins. -/
def positions (p : Spread) (hy : Nat) : Bool → Nat → Int → List (Entry × Bool) → List Int
  | _, _, _, [] => []
  | isFirst, i, x0, (e, hangs) :: t =>
    if hangs then x0 :: positions p hy false i x0 t
    else
      let x := x0 + (if isFirst then 0 else e.kern.getD 0)
      let isLast := !t.any fun q => !q.2
      let adv := (e.advance : Int) + (if e.isSpace then p.share i else 0) + (if isLast then (hy : Int) else 0)
      x :: positions p hy false (if e.isSpace then i + 1 else i) (x + adv) t

/-- R91: a position in su as a pixel column. -/
def pixelX (left indent : Nat) (x : Int) : Int := (left : Int) + (indent : Int) + (x + 32) / 64

end Sys2Proof.Machine
end

