-- ==== Sys2Proof/Machine/Planning.lean ====
section
/-! DEFINITION. The Refresh Planner's shared operations (chapter 9) and the dispatch of an update to a lane (chapter 10): tile records, the arrival and
merging of requests, the dispatch order, and the attempt to dispatch. -/

namespace Sys2Proof.Machine

open Sys2Proof

/-! ### Tile records (9.1) -/

/-- R152: a tile after an update of a mode ended OK. -/
def Tile.updated (t : Tile) : Mode → Tile
  | .full => { residue := 0, coarse := false }
  | .grey => { residue := min (t.residue + 2) Config.maxResidue, coarse := false }
  | .fast => { residue := min (t.residue + 8) Config.maxResidue, coarse := true }

/-- R153: a tile after an update that ended without success. -/
def Tile.unknown (t : Tile) : Tile := { t with residue := Config.maxResidue }

/-- Every tile of a rectangle becomes its image. -/
def mapTiles (q : Rect) (f : Tile → Tile) (v : Vector Tile 1200) : Vector Tile 1200 :=
  mapVector (fun i t => if q.has i then f t else t) v

/-! ### Requests (9.2, 9.3) -/

/-- R154: the rank that breaks ties of priority. -/
def Source.rank : Source → Nat
  | .flip => 5
  | .paint => 4
  | .request => 3
  | .settle => 2
  | .cleanup => 1

/-- R154: the source priority parameter in force. -/
def Params.priority (p : Params) : Source → Nat
  | .flip => p.priorityFlip
  | .paint => p.priorityPaint
  | .request => p.priorityRequest
  | .settle => p.prioritySettle
  | .cleanup => p.priorityCleanup

/-- R157: FULL is stronger than GREY, and GREY than FAST. -/
def Mode.strength : Mode → Nat
  | .full => 2
  | .grey => 1
  | .fast => 0

def Mode.stronger (m n : Mode) : Mode := if n.strength ≤ m.strength then m else n

def Source.higher (m n : Source) : Source := if n.rank ≤ m.rank then m else n

/-- R155: a request stands ahead of a later arrival when its priority is higher, or equal with a rank at least as high. -/
def Request.ahead (p q : Request) : Bool :=
  q.priority < p.priority || (p.priority == q.priority && q.source.rank ≤ p.source.rank)

/-- A request goes before those behind it; it arrived before all of them. -/
def insertRequest (p : Nat × Request) : List (Nat × Request) → List (Nat × Request)
  | [] => [p]
  | q :: t => if p.2.ahead q.2 then p :: q :: t else q :: insertRequest p t

/-- Each request with its place in the arrival order. -/
def numberedFrom : Nat → List Request → List (Nat × Request)
  | _, [] => []
  | i, r :: t => (i, r) :: numberedFrom (i + 1) t

/-- R155: the pending requests in dispatch order, each with its place in the arrival order. -/
def dispatchOrder (q : List Request) : List (Nat × Request) := (numberedFrom 0 q).foldr insertRequest []

/-- R156: the partner absorbs a new request of its own mode. -/
def Request.absorb (new p : Request) : Request :=
  { source := p.source.higher new.source, priority := max p.priority new.priority, mode := p.mode, rect := p.rect.join new.rect }

/-- R157: the last request absorbs a new one, whatever its mode. -/
def Request.absorbAny (new p : Request) : Request := { Request.absorb new p with mode := p.mode.stronger new.mode }

/-- R156: the place in the arrival order of the first request, in dispatch order, of the same mode that shares a tile. -/
def findPartner (q : List Request) (new : Request) : Option Nat :=
  ((dispatchOrder q).find? fun p => p.2.mode == new.mode && p.2.rect.meets new.rect).map (·.1)

/-- R156 and R157: the queue after a request's arrival. -/
def enqueue (q : List Request) (new : Request) : List Request :=
  match findPartner q new with
  | some i => modifyAt (Request.absorb new) i q
  | none =>
    if q.length < Config.queueRequests then q ++ [new]
    else match (dispatchOrder q).getLast? with
      | some p => modifyAt (Request.absorbAny new) p.1 q
      | none => q

/-! ### Dispatch (9.4, 10.1, 10.2) -/

/-- Chapter 9: a lane is busy while it is SENDING or WAITING. -/
def Lane.busy (l : Lane) : Bool := l.state == .sending || l.state == .waiting

/-- The rectangle a lane holds; only a busy lane holds one (R172). -/
def Lane.rect? (l : Lane) : Option Rect := if l.busy then l.update.map (·.rect) else none

/-- A rectangle shares a tile with that of some busy lane. -/
def LaneController.blocks (l : LaneController) (q : Rect) : Bool :=
  l.lane.toList.any fun x => match x.rect? with
    | some p => p.meets q
    | none => false

/-- The lanes in number order. -/
def laneIds : List (Fin 4) := [0, 1, 2, 3]

/-- R158: the lowest-numbered IDLE lane. -/
def LaneController.idleLane (l : LaneController) : Option (Fin 4) := laneIds.find? fun i => l.lane[i].state == .idle

/-- R158: the first eligible request of a dispatch order under a priority floor; `ahead` holds the rectangles of the requests already passed. -/
def firstEligible (floor : Nat) (l : LaneController) : List Rect → List (Nat × Request) → Option (Nat × Request)
  | _, [] => none
  | ahead, p :: t =>
    if floor ≤ p.2.priority && !l.blocks p.2.rect && !ahead.any (fun q => q.meets p.2.rect) then some p
    else firstEligible floor l (p.2.rect :: ahead) t

/-- R179: the timeout limit of a mode in force, in units of 16 ms. -/
def Params.limit (p : Params) : Mode → Nat
  | .full => p.limitFull
  | .grey => p.limitGrey
  | .fast => p.limitFast

/-- R174: a free transmitter takes the oldest lane of the transmit order. -/
def LaneController.feed (l : LaneController) : LaneController :=
  match l.tx with
  | some _ => l
  | none => { l with tx := l.order.head? }

/-- R173: a request is written into an IDLE lane, which becomes SENDING and joins the transmit order. -/
def LaneController.start (l : LaneController) (i : Fin 4) (r : Request) (plane : PlaneId) (p : Params) (now : Tick) : LaneController :=
  LaneController.feed
    { l with
      lane := l.lane.set i
        { state := .sending, seq := l.lane[i].seq + 1,
          update := some { source := r.source, mode := r.mode, rect := r.rect, plane, threshold := p.threshold, limit := p.limit r.mode,
                           started := now },
          elapsed := 0 }
      order := l.order ++ [i] }

/-- R107: a FLIP-source update dispatched while the show-pending mark is set puts its lane in the set of showing lanes. -/
def Planes.noteDispatch (p : Planes) (i : Fin 4) (source : Source) : Planes :=
  if p.showPending && source == .flip then { p with showing := if p.showing.contains i then p.showing else p.showing ++ [i] } else p

/-- R158 and R160: one dispatch, if an IDLE lane and a request eligible under a priority floor both remain. The plane read is the one SHOWN; a request is
pending only while one is (R155). -/
def dispatchAbove (floor : Nat) (s : State) : Option State :=
  match s.lanes.idleLane, s.planes.find .shown, firstEligible floor s.lanes [] (dispatchOrder s.planner.queue) with
  | some i, some plane, some (k, r) =>
    some (((s.setPlanner { s.planner with queue := removeAt k s.planner.queue }).setLanes
      (s.lanes.start i r plane s.params s.tick)).setPlanes (s.planes.noteDispatch i r.source))
  | _, _, _ => none

/-- One dispatch under the priority floor in force. -/
def dispatchOnce (s : State) : Option State := dispatchAbove s.params.floor s

/-- Dispatches follow one another until none can be made. -/
def dispatchUpTo : Nat → State → State
  | 0, s => s
  | n + 1, s => match dispatchOnce s with
    | none => s
    | some s' => dispatchUpTo n s'

/-- R158 and R159: the attempt to dispatch. Each dispatch takes one of the four lanes, so four are enough. -/
def attemptDispatch (s : State) : State := dispatchUpTo 4 s

/-- A request of a source joins the queue, at its source priority (R154), without an attempt to dispatch. -/
def State.enqueue (s : State) (source : Source) (mode : Mode) (q : Rect) : State :=
  s.setPlanner { s.planner with
    queue := Machine.enqueue s.planner.queue { source, priority := s.params.priority source, mode, rect := q } }

/-- R156 and R159: a request arrives, and dispatch is attempted. -/
def State.arrive (s : State) (source : Source) (mode : Mode) (q : Rect) : State := attemptDispatch (s.enqueue source mode q)

/-! ### Timers -/

/-- A timer runs, with its deadline `ms` after the present tick. -/
def State.deadlineIn (s : State) (ms : Nat) : Option Deadline := some { due := s.tick + BitVec.ofNat 32 ms, passed := false }

/-- The deadline of a running timer has been reached. -/
def due : Option Deadline → Bool
  | some d => d.passed
  | none => false

/-- The tick reaches a deadline. -/
def Deadline.reach (now : Tick) (d : Deadline) : Deadline := if d.due = now then { d with passed := true } else d

/-- R166: an OK FAST update starts a stopped settle timer. -/
def State.startSettle (s : State) : State :=
  match s.planner.settle with
  | some _ => s
  | none => s.setPlanner { s.planner with settle := s.deadlineIn s.params.settle }

/-- R168: the sweep timer is set going with the interval in force, or stopped by an interval of 0. -/
def State.restartSweep (s : State) : State :=
  s.setPlanner { s.planner with sweep := if s.params.sweep = 0 then none else s.deadlineIn (s.params.sweep * 1000) }

/-! ### Flip requests (9.6) -/

/-- R163: the flip request must be FULL. -/
def flipFull (p : Planner) (fullEvery : Nat) : Bool :=
  p.fullNext || p.queue.any (fun r => r.source == .flip && r.mode == .full) || fullEvery ≤ p.flipCounter

end Sys2Proof.Machine
end

