-- ==== Sys2Proof/Machine/NoteOps.lean ====
section
/-! DEFINITION. The Note Unit's shared operations (chapter 7): the order of a note list, notes at a page's close and at a full page, the paint hold set, and
the re-render of a live paint or erase. -/

namespace Sys2Proof.Machine

open Sys2Proof

/-! ### Note lists (7.1) -/

/-- R116: the order of a note list, by start ordinal, then id. -/
def Note.before (m n : Note) : Bool := m.start < n.start || (m.start == n.start && m.id ≤ n.id)

/-- R116: a note takes its place in a list. -/
def insertNote (n : Note) : List Note → List Note
  | [] => [n]
  | m :: t => if n.before m then n :: m :: t else m :: insertNote n t

/-- The note with an id. -/
def findNote (id : Nat) (l : List Note) : Option Note := l.find? fun n => n.id == id

/-- The notes with other ids. -/
def eraseNote (id : Nat) (l : List Note) : List Note := l.filter fun n => n.id != id

/-- R117: the tone a note records, and whether it was clamped. -/
def toneOf (style : NoteStyle) (tone : Nat) : Nat := if style = .shade then clampNat 1 11 tone else 0
def toneClamped (style : NoteStyle) (tone : Nat) : Bool := style == .shade && (tone < 1 || 11 < tone)

/-- R123: a note when its page of `g` ordinals is closed; an OPEN note that covers no ordinal is removed. -/
def Note.atClose (g : Nat) (n : Note) : Option Note :=
  match n.stop with
  | some _ => some n
  | none => if n.start < g then some { n with stop := some (g - 1), closedByPage := true } else none

/-- R124: what the full page keeps of a note, when the first carried ordinal is `c`. -/
def Note.keptAtFull (c : Nat) (n : Note) : Option Note :=
  if c ≤ n.start then none
  else match n.stop with
    | some e => if e < c then some n else some { n with stop := some (c - 1), closedByPage := true }
    | none => some { n with stop := some (c - 1), closedByPage := true }

/-- R124: what the continuation receives of a note. -/
def Note.movedAtFull (c : Nat) (n : Note) : Option Note :=
  if c ≤ n.start then some { n with start := n.start - c, stop := n.stop.map (· - c) }
  else match n.stop with
    | some e => if e < c then none else some { n with start := 0, stop := some (e - c), continued := true }
    | none => some { n with start := 0, continued := true, closedByPage := false }

/-- R124: the note list held for the continuation, in the order of R116. -/
def heldNotes (c : Nat) (l : List Note) : List Note := (l.filterMap (Note.movedAtFull c)).foldr insertNote []

/-! ### The paint hold set (7.8) -/

/-- R134 and R136: the hold set is emptied, its chain count becomes 0 and its timer stops. -/
def NoteUnit.emptyHold (n : NoteUnit) : NoteUnit := { n with tiles := [], chain := 0, coalesce := none }

/-- R134: the hold set is released as one FAST request of source PAINT for the bounding box of its tiles, which joins the queue; dispatch is not attempted
here. -/
def State.queueHold (s : State) : State :=
  match boundingBox s.notes.tiles with
  | none => s.setNotes s.notes.emptyHold
  | some q => (s.setNotes s.notes.emptyHold).enqueue .paint .fast q

/-- R134, R156 and R159: the hold set is released, and where that makes a request, dispatch is attempted on its arrival. -/
def State.releaseHold (s : State) : State :=
  match boundingBox s.notes.tiles with
  | none => s.queueHold
  | some _ => attemptDispatch s.queueHold

/-- R132: a drawn paint or erase joins the hold set, which is released when its chain count reaches 8. -/
def State.joinHold (s : State) (tiles : List Nat) : State :=
  let s := s.setNotes { s.notes with tiles := tiles.foldr insertNat s.notes.tiles, chain := s.notes.chain + 1 }
  if Config.chainLimit ≤ s.notes.chain then s.releaseHold else s

/-- R135 and R166: an accepted paint or erase restarts the coalescing timer and the settle timer. -/
def State.restartPaintTimers (s : State) : State :=
  (s.setNotes { s.notes with coalesce := s.deadlineIn s.params.coalescing }).setPlanner
    { s.planner with settle := s.deadlineIn s.params.settle }

/-! ### Re-rendering (7.7) -/

/-- R129: a line holds an ordinal of a range. -/
def Line.touches (l : Line) (range : Nat × Nat) : Bool :=
  0 < l.count && l.first ≤ range.2 && range.1 < l.first + l.count && range.1 ≤ range.2

/-- R129: the indices of the lines that hold an ordinal of one of the ranges. -/
def touchedLines (lines : List Line) (ranges : List (Nat × Nat)) : List Nat :=
  positionsFrom (fun l => ranges.any l.touches) 0 lines

/-- R129: the tile rows of a line's band; none for a band without rows. -/
def Line.tileRows (l : Line) : List Nat :=
  if l.bandLo < l.bandHi then
    List.range' (l.bandLo / Config.tileSide) ((l.bandHi - 1) / Config.tileSide + 1 - l.bandLo / Config.tileSide)
  else []

/-- R129: the tiles of a re-render, all thirty columns of each tile row, in rising order. -/
def rerenderTiles (lines : List Line) (idx : List Nat) : List Nat :=
  let rows := (idx.flatMap fun i => ((lines[i]?).map Line.tileRows).getD []).foldr insertNat []
  rows.flatMap fun r => List.range' (r * Config.tileColumns) Config.tileColumns

/-- A lane is SENDING from a plane (R106). -/
def Lane.sendsFrom (l : Lane) (plane : PlaneId) : Bool :=
  l.state == .sending && (match l.update with
    | some u => u.plane == plane
    | none => false)

/-- R130: a lane is SENDING from a plane with a rectangle that shares a tile with the set. -/
def sendConflict (l : LaneController) (plane : PlaneId) (tiles : List Nat) : Bool :=
  l.lane.toList.any fun x => x.sendsFrom plane && (match x.update with
    | some u => tiles.any u.rect.has
    | none => false)

/-- R130: the lines of a re-render are drawn on the front plane, in line index order. -/
def State.redraw (s : State) (lines : List Nat) : State :=
  match s.frontPage with
  | none => s
  | some (i, page) =>
    s.setPlanes (s.planes.setPixels i
      ((lines.filterMap fun k => page.lines[k]?).foldl (drawLine s page) (s.planes.get i).pixels))

/-- R130: an accepted paint or erase redraws its lines now, joins the hold set and ends; or, while a lane is SENDING one of its tiles from the front
plane, its re-render is held and the command keeps its slot. -/
def State.rerender (s : State) (h : HeldPaint) : State :=
  match s.frontPage with
  | none => s
  | some (i, _) =>
    if sendConflict s.lanes i h.tiles then s.setCmd { s.cmd with executing := some h }
    else (s.redraw h.lines).joinHold h.tiles

/-- R130: at a send end from the front plane a held re-render is tested again. -/
def State.testHeld (s : State) : State :=
  match s.cmd.executing with
  | none => s
  | some h => (s.setCmd { s.cmd with executing := none }).rerender h

/-- R131: a flip ends a held paint or erase without drawing. -/
def State.supersede (s : State) : State :=
  match s.cmd.executing with
  | none => s
  | some h =>
    (s.setCmd { s.cmd with executing := none }).commandRefused .superseded h.command.kind h.command.tag h.id h.ordinal

end Sys2Proof.Machine
end

