-- ==== Sys2Proof/Machine/PlaneOps.lean ====
section
/-! DEFINITION. The Plane Manager's shared operations (chapter 6): the frame clamp, opening a page, granting a plane, closing a page, and the flip. -/

namespace Sys2Proof.Machine

open Sys2Proof

/-- R99: two margins whose sum is limited: the second gives way first, then the first. -/
def clampPair (limit first second : Nat) : Nat × Nat :=
  if limit < first + second then (min first limit, limit - first) else (first, second)

/-- R99: the frame clamp. -/
def clampFrame (left right top bottom : Nat) : Frame :=
  let h := clampPair Config.maxSideMargins left right
  let v := clampPair Config.maxEndMargins top bottom
  { left := h.1, right := h.2, top := v.1, bottom := v.2,
    clamped := Config.maxSideMargins < left + right || Config.maxEndMargins < top + bottom }

/-- R100 and R105: a fresh page record. -/
def Page.fresh (number : PageNumber) (frame : Frame) (continuation : Bool) (notes : List Note) : Page :=
  { number, frame, glyphCount := 0, overflowed := false, continuation, lines := [], placements := [], notes, faceSet := [] }

/-- R100 and R105: a page opens on a plane, whose pixels all become paper. -/
def Planes.openOn (p : Planes) (i : PlaneId) (page : Page) : Planes :=
  p.set i { held := some { part := .composing, page }, pixels := [] }

/-- R100: a page opens; the Composer becomes COMPOSING with an empty line buffer, no paragraph and next ordinal 0. -/
def State.openPage (s : State) (i : PlaneId) (number : PageNumber) (frame : Frame) : State :=
  (s.setPlanes (s.planes.openOn i (Page.fresh number frame false []))).setComp
    { s.comp with state := .composing, buffer := [], nextOrdinal := 0, para := none }

/-- R105: a continuation opens with the note list held for it; its carry waits to be re-appended (R76). -/
def State.openContinuation (s : State) (i : PlaneId) (number : PageNumber) (frame : Frame) (notes : List Note) : State :=
  (s.setPlanes (s.planes.openOn i (Page.fresh number frame true notes))).setComp
    { s.comp with state := .composing, nextOrdinal := 0 }

/-- R98 and R56: an available plane is granted to the pending page, unless a stream hold lasts; a pending open finishes its PAGE_OPEN, whose ring
bytes are released. -/
def State.grant (s : State) : State :=
  if s.cmd.streamHold != 0 then s else
  match s.comp.state, s.planes.available with
  | .waitPlane (.opening number frame), some i => (s.openPage i number frame).release
  | .waitPlane (.continuation number frame notes), some i => s.openContinuation i number frame notes
  | _, _ => s

/-- R103, steps 2 to 4, and R123: the composing page is closed with its notes; its plane becomes READY, PAGE_READY is raised, and the Composer becomes
IDLE. -/
def State.closePage (s : State) : State :=
  match s.composingPage with
  | none => s
  | some (i, page) =>
    let page := { page with notes := page.notes.filterMap (Note.atClose page.glyphCount) }
    (((s.setPlanes ((s.planes.setPage i page).setPart i .ready)).setNotes { s.notes with openIds := [] }).setComp
      { s.comp with state := .idle, buffer := [], nextOrdinal := 0, para := none }).raise .pageReady

/-- A lane is SENDING from a plane. -/
def LaneController.sendsFrom (l : LaneController) (i : PlaneId) : Bool := l.lane.toList.any fun x => x.sendsFrom i

/-- R106, steps 1, 2 and 4: the READY plane becomes SHOWN; the old front becomes RETIRING while a lane sends from it, and FREE otherwise; the show
report is set up. -/
def flipPlanes (p : Planes) (l : LaneController) (i : PlaneId) : Planes :=
  let p := match p.find .shown with
    | none => p
    | some old => if l.sendsFrom old then p.setPart old .retiring else p.free old
  { p.setPart i .shown with showPending := true, showing := [] }

/-- R162 and R163: every pending request is cancelled, the hold set is emptied, and the flip request, for all tiles, is the queue's one member. -/
def State.flipRequest (s : State) : State :=
  let full := flipFull s.planner s.params.fullEvery
  let s := s.setPlanner { s.planner with queue := [], flipCounter := if full then 0 else s.planner.flipCounter + 1, fullNext := false }
  (s.setNotes s.notes.emptyHold).enqueue .flip (if full then .full else .grey) wholePanel

/-- R106: the flip of the READY plane. A held paint ends with it (R131), a pending page may be granted a plane, and the attempt to dispatch the flip
request comes when the flip is complete (R159). -/
def State.flip (s : State) (i : PlaneId) : State :=
  attemptDispatch ((s.setPlanes (flipPlanes s.planes s.lanes i)).flipRequest.supersede.grant)

/-- R110: a RETIRING plane from which no lane sends any more becomes FREE. -/
def State.retire (s : State) : State :=
  match s.planes.find .retiring with
  | none => s
  | some i => if s.lanes.sendsFrom i then s else (s.setPlanes (s.planes.free i)).grant

end Sys2Proof.Machine
end

