-- ==== Sys2Proof/Machine/Compose.lean ====
section
/-! DEFINITION. The Composer's shared operations (chapter 4): the measure, a line's commit, PAGE_FULL handling, the break test, the append of an entry,
and the end of a paragraph. -/

namespace Sys2Proof.Machine

open Sys2Proof

/-- How a commit, or a step with commits, came out: it was placed, or it turned into PAGE_FULL handling (R74), which ends the step. -/
inductive Commit where
  | placed (s : State)
  | full (s : State)

/-- The state either way. -/
def Commit.state : Commit → State
  | .placed s => s
  | .full s => s

/-- What follows a commit that was placed. -/
def Commit.andThen (c : Commit) (f : State → Commit) : Commit :=
  match c with
  | .placed s => f s
  | .full s => .full s

/-! ### The measure (5.1) -/

/-- R78: the page's measure in px. -/
def Frame.width (f : Frame) : Nat := Config.panelWidth - f.left - f.right

/-- R72: the pending line is the first line of its paragraph. -/
def Composer.firstLine (c : Composer) : Bool :=
  match c.para with
  | some p => !p.firstDone
  | none => false

/-- The first-line indent that applies to the pending line. -/
def Composer.indent (c : Composer) : Nat :=
  match c.para with
  | some p => if p.firstDone then 0 else p.indent
  | none => 0

/-- R78: the measure of the pending line, in su. -/
def State.measure (s : State) : Int :=
  match s.composingPage with
  | none => 0
  | some (_, page) => ((page.frame.width : Int) - (s.comp.indent : Int)) * Config.suPerPixel

/-! ### PAGE_FULL handling (R74, R104) -/

/-- R24: the face set of the entries that stay on a full page, those of its committed lines. -/
def faceSetOf (ps : List Placement) : List Nat := ps.foldr (fun p acc => insertNat p.face acc) []

/-- R74, R104 and R124: the whole line buffer, and what is left of an earlier carry, becomes the carry; the page closes READY and OVERFLOWED at its first carried
ordinal, its notes are kept, split or moved, and the continuation is pending. -/
def State.pageFull (s : State) : State :=
  match s.composingPage with
  | none => s
  | some (i, page) =>
    let c := match s.comp.buffer with
      | [] => page.glyphCount
      | e :: _ => e.ordinal
    let closed := { page with glyphCount := c, overflowed := true, faceSet := faceSetOf page.placements,
                              notes := page.notes.filterMap (Note.keptAtFull c) }
    (((s.setPlanes ((s.planes.setPage i closed).setPart i .ready)).setComp
      { s.comp with
        state := .waitPlane (.continuation (page.number + 1) page.frame (heldNotes c page.notes))
        buffer := []
        nextOrdinal := 0
        para := s.comp.para.map fun p => { p with firstDone := true }
        carry := s.comp.buffer ++ s.comp.carry }).raise .pageReady).raise .pageFull

/-! ### Commit (R73) -/

/-- R92: the box metrics of a line from the faces of its entries that do not hang; of the current face if all hang. -/
def boxMetrics (t : FaceTable) (core : List Entry) : Nat × Nat × Nat :=
  let faces := if core.isEmpty then [t.face t.current] else core.map fun e => t.face e.face
  (faces.foldl (fun m f => max m ((f.map (·.ascent)).getD 0)) 0,
   faces.foldl (fun m f => max m ((f.map (·.descent)).getD 0)) 0,
   faces.foldl (fun m f => max m ((f.map (·.gap)).getD 0)) 0)

/-- R93: the baseline of the next line of a page. -/
def nextBaseline (page : Page) (spaceBefore ascent : Nat) : Nat :=
  match page.lines.getLast? with
  | none => page.frame.top + ascent
  | some l => l.baseline + l.descent + l.gap + spaceBefore + ascent

/-- R73, step 5: the placements of a line's entries at their pixel columns. A taken SOFT_HYPHEN, the line's last entry that does not hang, is placed as its
hyphen glyph. -/
def placeEntries (t : FaceTable) (hyphenated : Bool) : List (Entry × Bool) → List Int → List Placement
  | (e, hangs) :: es, x :: xs =>
    let taken := hyphenated && !hangs && !es.any fun q => !q.2
    { ordinal := e.ordinal,
      code := if taken then ((t.face e.face).map (·.hyphen)).getD 0 else e.subst,
      face := e.face, x, cls := e.cls, shift := e.shift,
      drawn := taken || isGlyphClass e.cls } :: placeEntries t hyphenated es xs
  | _, _ => []

/-- A line worked out by steps 1 and 2 of R73: its record, but for the flag OVERTALL, its placements, and whether it passes the vertical check (R94). -/
structure LaidOut where
  line       : Line
  placements : List Placement
  passes     : Bool
  deriving DecidableEq, Repr

/-- R73, steps 1 and 2: justification and the vertical metrics. -/
def layOut (s : State) (page : Page) (l : EndingLine) : LaidOut :=
  let marked := markHanging (·.cls) l.entries
  let core := l.core
  let hy := if l.hyphenated then ((core.getLast?).map fun e => s.hyphenAdvance e.face).getD 0 else 0
  let first := s.comp.firstLine
  let indent := s.comp.indent
  let alignment := match s.comp.para with
    | some p => p.alignment
    | none => .justify
  let spread := spreadOf l.overwide l.last alignment (s.measure - naturalWidth hy core) (spaceCount core)
    (spaceLimit s.params.stretch core)
  let xs := (positions spread hy true 0 spread.offset marked).map (pixelX page.frame.left indent)
  let box := boxMetrics s.faces core
  let spaceBefore := match s.comp.para with
    | some p => if first then p.spaceBefore else 0
    | none => 0
  let baseline := nextBaseline page spaceBefore box.1
  { line :=
      { first := ((l.entries.head?).map (·.ordinal)).getD 0, count := l.entries.length, baseline,
        ascent := box.1, descent := box.2.1, gap := box.2.2, offset := spread.offset,
        flags := { justified := spread.justified, loose := spread.loose, forced := l.forced, overwide := l.overwide,
                   hyphenated := l.hyphenated, paraFirst := first, paraLast := l.paraLast, overtall := false } },
    placements := placeEntries s.faces l.hyphenated marked xs,
    passes := baseline + box.2.1 ≤ Config.panelHeight - page.frame.bottom }

/-- R74: a commit turns into PAGE_FULL handling: it would be the page's 161st line, or it fails the vertical check and is not the page's first. -/
def commitFails (page : Page) (o : LaidOut) : Bool :=
  Config.pageLines ≤ page.lines.length || (!page.lines.isEmpty && !o.passes)

/-- R73, steps 4 to 7: the line joins the page, its entries leave the buffer, and it is drawn. -/
def placeLine (s : State) (i : PlaneId) (page : Page) (count : Nat) (o : LaidOut) : State :=
  let line := { o.line with flags := { o.line.flags with overtall := !o.passes } }
  let page := { page with lines := page.lines ++ [line], placements := page.placements ++ o.placements }
  let s := s.setComp { s.comp with
    buffer := s.comp.buffer.drop count
    para := s.comp.para.map fun p => { p with firstDone := true } }
  s.setPlanes ((s.planes.setPage i page).setPixels i (drawLine s page (s.planes.get i).pixels line))

/-- R73: the commit of an ending line. -/
def State.commit (s : State) (l : EndingLine) : Commit :=
  match s.composingPage with
  | none => .placed s
  | some (i, page) =>
    let o := layOut s page l
    if commitFails page o then .full s.pageFull else .placed (placeLine s i page l.entries.length o)

/-! ### The break test (R60) -/

/-- The pending line fits its measure. -/
def State.pendingFits (s : State) : Bool := fits s.params.shrink s.measure 0 (trimSpaces s.comp.buffer)

/-- R60: the break chosen for a pending line that does not fit. -/
def State.pendingBreak (s : State) : Break :=
  chooseBreak s.params.shrink s.measure s.hyphenAdvance (trimSpaces s.comp.buffer)

/-- R60: breaks and commits repeat until the pending line fits; each commit takes at least one entry, so the buffer's length bounds them. -/
def breakUpTo : Nat → State → Commit
  | 0, s => .placed s
  | n + 1, s =>
    if s.pendingFits then .placed s
    else (s.commit (brokenLine s.comp.buffer s.pendingBreak)).andThen (breakUpTo n)

/-- R60: the break test. -/
def State.breakTest (s : State) : Commit := breakUpTo s.comp.buffer.length s

/-! ### Appending (R59, R76) -/

/-- R69: an append opens a default paragraph if the paragraph record is absent. -/
def Composer.withPara (c : Composer) : Composer :=
  match c.para with
  | some _ => c
  | none => { c with para := some { alignment := .justify, indent := 0, spaceBefore := 0, firstDone := false } }

/-- R52: the kern adjustment kept with an entry against the one appended before it. -/
def State.kernFor (s : State) (e : Entry) : Option Int :=
  match s.comp.buffer.getLast? with
  | none => none
  | some p =>
    if isGlyphClass p.cls && isGlyphClass e.cls && p.face == e.face then
      match p.kernClass, e.kernClass, (s.faces.face e.face).bind fun f => s.tableAt f.table with
      | some l, some r, some t => some (t.kernAt l r)
      | _, _, _ => none
    else none

/-- R59, steps 2, 3, 5 and 6: the entry takes the next ordinal, its kern adjustment and its place at the buffer's end; the plane's face set gains its face (R22). -/
def State.join (s : State) (e : Entry) : State :=
  let c := s.comp.withPara
  let e := { e with ordinal := c.nextOrdinal, kern := s.kernFor e }
  (s.setComp { c with buffer := c.buffer ++ [e], nextOrdinal := c.nextOrdinal + 1 }).mapComposingPage fun page =>
    { page with glyphCount := c.nextOrdinal + 1, faceSet := if e.face = 0 then page.faceSet else insertNat e.face page.faceSet }

/-- R68: a buffer that holds 256 entries ends a line. -/
def State.bufferFull (s : State) : Commit :=
  if Config.bufferEntries ≤ s.comp.buffer.length then s.commit (fullLine s.comp.buffer) else .placed s

/-- R59, steps 7 and 8: after an append a LINE_BREAK ends the line at once (R67), any other entry brings the break test, and a full buffer ends a line. -/
def State.afterAppend (s : State) (cls : Nat) : Commit :=
  (if cls = clsLineBreak then s.commit (breakLine s.comp.buffer) else s.breakTest).andThen State.bufferFull

/-- R48: the entry made of a TEXT_RUN's code and class in the current face, with the GLYPH_MISSING reason if its face's replacement glyph stands in. -/
def State.lookup (s : State) (code cls : Nat) : Entry × Option GlyphReason :=
  let plain : Entry := { code, subst := code, cls, face := s.faces.current, shift := s.faces.shift, ordinal := 0, advance := 0,
                         kernClass := none, kern := none }
  match s.faces.face s.faces.current with
  | none => (plain, none)
  | some f =>
    if isGlyphClass cls then
      let found (c : Nat) : Entry :=
        match s.glyphOf s.faces.current c with
        | none => { plain with subst := c }
        | some g => { plain with subst := c, advance := g.advance, kernClass := some g.kernClass }
      if f.firstCode ≤ code && code ≤ f.lastCode then
        if (s.glyphOf s.faces.current code).isSome then (found code, none) else (found f.replacement, some .undefined)
      else (found f.replacement, some .outOfRange)
    else if cls = clsSpace || cls = clsNbspace then ({ plain with advance := f.space }, none)
    else (plain, none)

/-- R59: one entry of a TEXT_RUN is appended, and what its append leads to. -/
def State.appendNew (s : State) (r : Record) (code cls : Nat) : Commit :=
  let (e, missing) := s.lookup code cls
  let s := match missing with
    | some why => s.glyphMissing why r code s.comp.nextOrdinal
    | none => s
  (s.join e).afterAppend cls

/-! ### Ends of paragraphs (R71, R77) -/

/-- R71: the buffer's entries end a last line, and the paragraph record becomes absent. -/
def State.endParagraph (s : State) : Commit :=
  let done (s : State) : Commit := .placed (s.setComp { s.comp with para := none })
  if s.comp.buffer.isEmpty then done s else (s.commit (lastLine s.comp.buffer)).andThen done

end Sys2Proof.Machine
end

