-- ==== Sys2Proof/Machine/Replies.lean ====
section
/-! DEFINITION. What the composer returns on the Page Stream Link: the status digest (R14) and the replies to QUERY (R189 to R191). -/

namespace Sys2Proof.Machine

open Sys2Proof

/-! ### The digest (R14) -/

/-- Bits 0..1 of byte 3. -/
def ComposerState.code : ComposerState → Nat
  | .idle => 0
  | .composing => 1
  | .waitPlane _ => 2

/-- R172. -/
def LaneState.code : LaneState → Nat
  | .idle => 0
  | .sending => 1
  | .waiting => 2
  | .faulted => 3

/-- Byte 8: two bits a lane, lane 0 lowest. -/
def laneCodes (l : LaneController) : Nat :=
  l.lane[0].state.code + 4 * l.lane[1].state.code + 16 * l.lane[2].state.code + 64 * l.lane[3].state.code

/-- Bytes 12..13. -/
def frontNumber (s : State) : Nat :=
  match s.frontPage with
  | some (_, page) => page.number.toNat % 65536
  | none => 0

/-- R14: the sixteen bytes of the digest. -/
def digest (s : State) : List Byte :=
  le16 (freeBytes s) ++ le8 (freeSlots s) ++ le8 (s.comp.state.code + bitOf (0 < s.cmd.streamHold) 128) ++
  le8 (s.planes.a.code + 16 * s.planes.b.code) ++ le16 s.events.flags.toNat ++ le8 (levelFlags s).toNat ++
  le8 (laneCodes s.lanes) ++ le8 s.planner.queue.length ++ le16 s.tick.toNat ++ le16 (frontNumber s) ++ le16 s.link.reply.length

/-- R1 and 00_scope (Signals): the byte that PSL_DO carries during the next eight clocks; none while it is at high impedance. -/
def pslDo (s : State) : Option Byte :=
  match s.link.select with
  | .high => none
  | .ignored => some 0
  | .transfer => some (s.link.outbound.getD s.link.clocked 0)

/-! ### Replies (R189 to R191) -/

/-- R189: a NONE reply: the query kind and the selector as sent. -/
def replyNone (r : Record) : List Byte := [0xFF, r.tag] ++ le8 (r.u8 4) ++ le8 (r.u8 5)

/-- The first two bytes of a reply about a found object. -/
def replyHead (r : Record) : List Byte := [r.byte 4, r.tag]

/-- R190: the stack entries of the FACE reply, bottom first, padded to eight. -/
def stackBytes (stack : List (Nat × Int)) : List Byte :=
  let bytes := stack.reverse.flatMap fun e => le8 e.1 ++ leInt16 e.2
  bytes ++ List.replicate (24 - bytes.length) 0

/-- R190: the FACE reply of a handle 0..31. -/
def replyFace (s : State) (r : Record) (h : Nat) : List Byte :=
  let entry := match s.faces.face h with
    | none => List.replicate 15 0
    | some f => le8 f.table ++ le16 f.firstCode ++ le16 f.lastCode ++ le16 f.replacement ++ le16 f.hyphen ++ le16 f.space ++
        le8 f.ascent ++ le8 f.descent ++ le8 f.gap ++ le8 (useCount s h)
  replyHead r ++ le8 h ++ le8 (bitOf (s.faces.face h).isSome 1) ++ entry ++ le8 s.faces.current ++ leInt16 s.faces.shift ++
  le8 s.faces.stack.length ++ le8 (bitOf s.faces.stackError 1 + bitOf s.faces.underflow 2) ++ stackBytes s.faces.stack ++
  le8 (bitOf (s.planes.a.faceSet.contains h) 1 + bitOf (s.planes.b.faceSet.contains h) 2)

/-- R190: the table state codes. -/
def TableState.code : TableState → Nat
  | .empty => 0
  | .loading => 1
  | .ready => 2
  | .faulty => 3

/-- R190: the TABLE reply. -/
def replyTable (s : State) (r : Record) (id : Nat) (t : GlyphTable) : List Byte :=
  replyHead r ++ le8 id ++ le8 t.state.code ++ le32 t.budget ++ le32 t.fill ++ le16 t.glyphs.length ++ le16 (t.lastCode.getD 0) ++
  le8 (bitOf t.lastCode.isSome 1) ++ le32 (reservedTotal s)

/-- R190: the PAGE reply. -/
def replyPage (s : State) (r : Record) (part : Part) (i : PlaneId) (page : Page) : List Byte :=
  let ids := if part = .composing then s.notes.openIds else []
  let idBytes := ids.flatMap le16
  replyHead r ++ le8 (r.u8 5) ++ le8 i.code ++ le32 page.number.toNat ++
  le16 page.frame.left ++ le16 page.frame.right ++ le16 page.frame.top ++ le16 page.frame.bottom ++
  le8 (bitOf page.frame.clamped 1 + bitOf page.overflowed 2 + bitOf page.continuation 4) ++
  le16 (if part = .composing then s.comp.nextOrdinal else page.glyphCount) ++ le8 page.lines.length ++ le8 page.notes.length ++
  le8 ids.length ++ idBytes ++ List.replicate (16 - idBytes.length) 0

/-- R191: the flags byte of the LINE reply. -/
def LineFlags.code (f : LineFlags) : Nat :=
  bitOf f.justified 1 + bitOf f.loose 2 + bitOf f.forced 4 + bitOf f.overwide 8 + bitOf f.hyphenated 16 + bitOf f.paraFirst 32 +
  bitOf f.paraLast 64 + bitOf f.overtall 128

/-- R191: the LINE reply. -/
def replyLine (r : Record) (i : PlaneId) (plane : Plane) (index : Nat) (l : Line) : List Byte :=
  replyHead r ++ le8 i.code ++ le8 plane.code ++ le8 index ++ le16 l.first ++ le16 l.count ++ le16 l.baseline ++
  le8 l.ascent ++ le8 l.descent ++ le8 l.gap ++ leInt32 l.offset ++ le8 l.flags.code

/-- The position of the note with an id in a note list, counted from `k`. -/
def notePosition (id : Nat) : Nat → List Note → Nat
  | k, [] => k
  | k, n :: t => if n.id = id then k else notePosition id (k + 1) t

/-- R191: the NOTE reply. -/
def replyNote (r : Record) (i : PlaneId) (plane : Plane) (page : Page) (n : Note) : List Byte :=
  replyHead r ++ le8 i.code ++ le8 plane.code ++ le16 n.id ++ le8 n.style.code ++ le8 n.tone ++ le16 n.start ++ le16 (n.stop.getD 0) ++
  le8 (bitOf n.stop.isSome 1 + bitOf n.continued 2 + bitOf n.closedByPage 4 + bitOf n.live 8) ++ le8 (notePosition n.id 0 page.notes)

/-- R191: the fourteen bytes of one lane. -/
def laneBytes (l : Lane) : List Byte :=
  le8 l.state.code ++ [l.seq] ++
  (match l.update with
    | none => [0xFF, 0xFF] ++ List.replicate 8 0
    | some u => le8 (u.source.code + 16 * u.mode.code) ++ le8 (u.threshold + 16 * u.plane.code) ++
        le8 u.rect.c0 ++ le8 u.rect.r0 ++ le8 u.rect.c1 ++ le8 u.rect.r1 ++ le16 u.limit ++ le16 (u.started.toNat % 65536)) ++
  le16 l.elapsed

/-- R191: the LANES reply. -/
def replyLanes (s : State) (r : Record) : List Byte :=
  let last (d : Tick) := le16 (min d.toNat 65535)
  replyHead r ++ laneBytes s.lanes.lane[0] ++ laneBytes s.lanes.lane[1] ++ laneBytes s.lanes.lane[2] ++ laneBytes s.lanes.lane[3] ++
  last s.lanes.lastFull ++ last s.lanes.lastGrey ++ last s.lanes.lastFast

/-- R191: the FAULT reply of one slot. -/
def replyFault {ρ : Type} (s : State) (r : Record) (e : EdgeEvent) (code : ρ → Nat) (slot : Option (Detail ρ)) : List Byte :=
  replyHead r ++ le8 (r.u8 5) ++
  (match slot with
    | none => List.replicate 9 0
    | some d => le8 1 ++ le8 (bitOf d.more 1) ++ le8 (code d.reason) ++ [d.kind, d.tag] ++ le16 d.value ++ le16 d.ordinal) ++
  le8 (bitOf (s.events.has e) 1)

/-- R189: the part that a PAGE query's selector names. -/
def partOf : Nat → Option Part
  | 0 => some .shown
  | 1 => some .ready
  | 2 => some .composing
  | _ => none

/-- R189: the plane of a LINE or NOTE query, with its page; none when it is FREE or RETIRING. -/
def queryPlane (s : State) (selector : Nat) : Option (PlaneId × Page) :=
  (planeOf selector).bind fun i => ((s.planes.get i).held.filter fun h => h.part != .retiring).map fun h => (i, h.page)

/-- R189: the reply to a QUERY, from the state as it stands. -/
def queryReply (s : State) (r : Record) : List Byte :=
  let selector := r.u8 5
  let index := r.u16 6
  match r.u8 4 with
  | 0 => if 32 ≤ index || (index != 0 && (s.faces.face index).isNone) then replyNone r else replyFace s r index
  | 1 => match s.tableAt index with
    | none => replyNone r
    | some t => replyTable s r index t
  | 2 => match (partOf selector).bind fun part => (s.planes.pageOf part).map fun p => (part, p) with
    | none => replyNone r
    | some (part, i, page) => replyPage s r part i page
  | 3 => match (queryPlane s selector).bind fun p => (p.2.lines[index]?).map fun l => (p.1, l) with
    | none => replyNone r
    | some (i, l) => replyLine r i (s.planes.get i) index l
  | 4 => match (queryPlane s selector).bind fun p => (findNote index p.2.notes).map fun n => (p.1, p.2, n) with
    | none => replyNone r
    | some (i, page, n) => replyNote r i (s.planes.get i) page n
  | 5 => replyLanes s r
  | 6 => match s.planner.tiles[index]? with
    | none => replyNone r
    | some t => replyHead r ++ le16 index ++ le8 t.residue ++ le8 (bitOf t.coarse 1)
  | 7 => match selector with
    | 0 => replyFault s r .faceFault FaceReason.code s.events.face
    | 1 => replyFault s r .glyphMissing GlyphReason.code s.events.glyph
    | 2 => replyFault s r .tableFault TableReason.code s.events.table
    | 3 => replyFault s r .noteFault NoteReason.code s.events.note
    | 4 => replyFault s r .commandRefused CommandReason.code s.events.command
    | _ => replyNone r
  | _ => replyNone r

end Sys2Proof.Machine
end

