-- ==== Sys2Proof/Machine/LinkCommands.lean ====
section
/-! DEFINITION. The events of the Page Stream Link (chapter 1): power-on reset, the edges of PSL_SEL_N, and the bytes of a transfer. -/

namespace Sys2Proof.Machine

open Sys2Proof

/-! ### Framing (1.2 to 1.6) -/

/-- R3: a command refused at its header: COMMAND_REFUSED, and its `len - 4` further bytes are passed over. -/
def State.refuseHeader (s : State) (reason : CommandReason) (kind tag : Byte) (len : Nat) : State :=
  (s.setLink { s.link with framing := if len = 4 then .between else .skipCommand (len - 4) }).commandRefused reason kind tag kind.toNat 0

/-- R5: a whole stream record enters the ring as its newest record, and framing returns to BETWEEN. -/
def State.enterRing (s : State) (r : Record) : State :=
  (s.setLink { s.link with framing := .between }).setRing (s.ring ++ [r])

/-- R8 and R11: a whole command is accepted and queued; a STREAM_RESET first empties the ring and raises the stream hold count. -/
def State.acceptCommand (s : State) (r : Record) : State :=
  let s := s.setLink { s.link with framing := .between }
  let s := if r.kind = kindStreamReset then (s.setRing []).setCmd { s.cmd with streamHold := s.cmd.streamHold + 1 } else s
  s.setCmd { s.cmd with queued := s.cmd.queued ++ [r] }

/-- R3, R4 and R8: a complete header is judged. -/
def State.judgeHeader (s : State) (kind tag lo hi : Byte) : State :=
  let len := lo.toNat + 256 * hi.toNat
  if len < Config.minRecord || Config.maxRecord < len || 0x60 ≤ kind.toNat then
    (s.setLink { s.link with framing := .skipRest }).raise .framingError
  else if 0x40 ≤ kind.toNat then
    match commandLength kind with
    | none => s.refuseHeader .unknownKind kind tag len
    | some n =>
      if len ≠ n then s.refuseHeader .badLength kind tag len
      else if freeSlots s = 0 then s.refuseHeader .queueFull kind tag len
      else if len = 4 then s.acceptCommand { kind, tag, body := [] }
      else s.setLink { s.link with framing := .bodyCommand kind tag len [] }
  else if freeBytes s < len then (s.setLink { s.link with framing := .skipRest }).raise .intakeOverrun
  else if len = 4 then s.enterRing { kind, tag, body := [] }
  else s.setLink { s.link with framing := .bodyStream kind tag len [] }

/-- R2, R5 and R8: a byte is handed to framing. -/
def State.frameByte (s : State) (b : Byte) : State :=
  match s.link.framing with
  | .between => if b = 0 then s else s.setLink { s.link with framing := .header [b] }
  | .header got =>
    match got with
    | [kind, tag, lo] => s.judgeHeader kind tag lo b
    | _ => s.setLink { s.link with framing := .header (got ++ [b]) }
  | .bodyStream kind tag len got =>
    if len ≤ got.length + 5 then s.enterRing { kind, tag, body := got ++ [b] }
    else s.setLink { s.link with framing := .bodyStream kind tag len (got ++ [b]) }
  | .bodyCommand kind tag len got =>
    if len ≤ got.length + 5 then s.acceptCommand { kind, tag, body := got ++ [b] }
    else s.setLink { s.link with framing := .bodyCommand kind tag len (got ++ [b]) }
  | .skipCommand left => s.setLink { s.link with framing := if left ≤ 1 then .between else .skipCommand (left - 1) }
  | .skipRest => s

/-- R1 and R2: a byte completed during a transfer is counted and handed to framing. While PSL_SEL_N is high no clock is counted, and a selection that
was low at power-on takes no inbound bytes. -/
def State.clockByte (s : State) (b : Byte) : State :=
  match s.link.select with
  | .transfer => (s.setLink { s.link with clocked := s.link.clocked + 1 }).frameByte b
  | .high => s
  | .ignored => s

/-- The next byte completes a header. -/
def Framing.headerNext : Framing → Bool
  | .header got => got.length == 3
  | .between | .bodyStream _ _ _ _ | .bodyCommand _ _ _ _ | .skipCommand _ | .skipRest => false

/-- The next byte is the last of an admitted stream record. -/
def Framing.recordNext : Framing → Bool
  | .bodyStream _ _ len got => len ≤ got.length + 5
  | .between | .header _ | .bodyCommand _ _ _ _ | .skipCommand _ | .skipRest => false

/-- The next byte is the last of an admitted command. -/
def Framing.commandNext : Framing → Bool
  | .bodyCommand _ _ len got => len ≤ got.length + 5
  | .between | .header _ | .bodyStream _ _ _ _ | .skipCommand _ | .skipRest => false

/-- R6: the record in arrival is incomplete. -/
def Framing.incomplete : Framing → Bool
  | .header _ | .bodyStream _ _ _ _ | .bodyCommand _ _ _ _ => true
  | .between | .skipCommand _ | .skipRest => false

/-! ### The events -/

/-- POWER_ON_RESET (R16 and the power-on rule of each chapter): every block takes its power-on values. The pin PSL_SEL_N keeps its level, and a selection
already low is not taken as a transfer (R1); the planes' pixels are of no account (R115) and stand as they were. -/
def execPowerOnReset (s : State) : Host.Outcome State Fault Refusal :=
  .next { State.reset with
    pending := s.pending
    link := { Link.reset with select := if s.link.select = .high then .high else .ignored }
    planes := { Planes.reset with
      a := { Plane.free with pixels := s.planes.a.pixels }
      b := { Plane.free with pixels := s.planes.b.pixels } } }

/-- TRANSFER_BEGIN (R1, R13): framing goes to BETWEEN, the digest is captured and the outbound bytes are fixed: the digest, then the pending reply. -/
def execTransferBegin (s : State) : Host.Outcome State Fault Refusal :=
  .next (match s.link.select with
    | .high => s.setLink { s.link with
        select := .transfer, framing := .between, outbound := digest s ++ s.link.reply, clocked := 0,
        carried := s.link.reply.length, replaced := false }
    | .ignored => s
    | .transfer => s)

/-- R15: the reply that the transfer carried was clocked out completely and is still the pending one. -/
def Link.settled (l : Link) : Bool := 0 < l.carried && !l.replaced && 16 + l.carried ≤ l.clocked

/-- TRANSFER_END (R1, R6, R15): an incomplete record is discarded with FRAMING_ERROR and its reservation or slot released; the reply is settled. The bits of
an unfinished byte are dropped. -/
def execTransferEnd (partialBits : Nat) (s : State) : Host.Outcome State Fault Refusal :=
  if partialBitsOk partialBits then
    .next (match s.link.select with
      | .transfer =>
        (s.setLink { s.link with
          select := .high, framing := .between, outbound := [], clocked := 0, carried := 0, replaced := false,
          reply := if s.link.settled then [] else s.link.reply }).raiseIf s.link.framing.incomplete .framingError
      | .ignored => s.setLink { s.link with select := .high }
      | .high => s)
  else .fault .illFormed

/-- RECORD_HEADER (R3): the fourth header byte arrives and the header is judged. -/
def execRecordHeader (b : Byte) (s : State) : Host.Outcome State Fault Refusal :=
  .next (if s.link.framing.headerNext then s.clockByte b else s)

/-- STREAM_RECORD_ENTRY (R5): the last byte of an admitted stream record arrives. -/
def execStreamRecordEntry (b : Byte) (s : State) : Host.Outcome State Fault Refusal :=
  .next (if s.link.framing.recordNext then s.clockByte b else s)

/-- COMMAND_WHOLE (R8, R11): the last byte of an admitted command arrives. -/
def execCommandWhole (b : Byte) (s : State) : Host.Outcome State Fault Refusal :=
  .next (if s.link.framing.commandNext then s.clockByte b else s)

/-- INBOUND_BYTE (R1, R2): a byte completes on PSL_DI and is handed to framing. Where it completes a header, a record or a command, the event is also a
RECORD_HEADER, STREAM_RECORD_ENTRY or COMMAND_WHOLE, and has its effect. -/
def execInboundByte (b : Byte) (s : State) : Host.Outcome State Fault Refusal := .next (s.clockByte b)

end Sys2Proof.Machine
end

