-- ==== Sys2Proof/Machine/PageCommands.lean ====
section
/-! DEFINITION. The immediate commands that act on pages, notes, the panel, events and the stream, as the Command Unit executes them (R9): each takes the oldest
queued command of its kind; a turn that finds another command there, or a paint still held, changes nothing. -/

namespace Sys2Proof.Machine

open Sys2Proof

/-- R9: the Command Unit takes a command and executes it by the rule of its kind. -/
def State.execute (s : State) (kind : Byte) (rule : Record → State → State) : State :=
  match s.commandOf kind with
  | none => s
  | some r => rule r s.dequeue

/-- R133: a command first releases the hold set, and the request released is dispatched as its arrival allows (R156, R159). PAGE_SHOW and PANEL_RESET, which cancel
that request, release it themselves. -/
def State.executeReleasing (s : State) (kind : Byte) (rule : Record → State → State) : State :=
  s.execute kind fun r s => rule r s.releaseHold

/-- R108: the refusal of PAGE_SHOW and PAGE_DROP. -/
def State.nothingReady (s : State) (r : Record) : State := s.commandRefused .nothingReady r.kind r.tag r.kind.toNat 0

/-- PAGE_SHOW (R108): the READY page is flipped. A request released ahead of the flip is cancelled at once by it (R133, R162), before any dispatch (DEDUCED, log 20);
where nothing is READY there is no flip, and its arrival attempts dispatch as ever. -/
def execPageShow (s : State) : Host.Outcome State Fault Refusal :=
  .next (s.execute kindPageShow fun r s =>
    match s.planes.find .ready with
    | none => s.releaseHold.nothingReady r
    | some i => s.queueHold.flip i)

/-- PAGE_DROP (R109): the READY plane becomes FREE, and a pending page may be granted it. -/
def execPageDrop (s : State) : Host.Outcome State Fault Refusal :=
  .next (s.executeReleasing kindPageDrop fun r s =>
    match s.planes.find .ready with
    | none => s.nothingReady r
    | some i => (s.setPlanes (s.planes.free i)).grant)

/-! ### Live paints (7.6) -/

/-- R126: the ordinals of a NOTE_PAINT after the exchange. -/
def paintStart (r : Record) : Nat := min (r.u16 8) (r.u16 10)
def paintEnd (r : Record) : Nat := max (r.u16 8) (r.u16 10)

/-- R126: the checks of a NOTE_PAINT, in order. -/
def paintRefusal (front : Option (PlaneId × Page)) (r : Record) : Option CommandReason :=
  match front with
  | none => some .noPage
  | some (_, page) =>
    if r.u16 4 = 0 then some .badId
    else if (styleOf (r.u8 6)).isNone then some .badStyle
    else if page.glyphCount ≤ paintStart r then some .range
    else if (findNote (r.u16 4) page.notes).isNone && Config.pageNotes ≤ page.notes.length then some .listFull
    else none

/-- R127: the note that an accepted NOTE_PAINT writes on a page of `g` ordinals. -/
def paintedNote (r : Record) (style : NoteStyle) (g : Nat) : Note :=
  { id := r.u16 4, style, tone := toneOf style (r.u8 7), start := paintStart r, stop := some (min (paintEnd r) (g - 1)),
    continued := false, closedByPage := false, live := true }

/-- A note's range of ordinals, where it has an end. -/
def Note.range (n : Note) : List (Nat × Nat) :=
  match n.stop with
  | some e => [(n.start, e)]
  | none => []

/-- R127 to R130: the front page's note list is rewritten, both timers restart, and the lines of the ranges named are redrawn, now or after a held wait. -/
def State.repaint (s : State) (r : Record) (i : PlaneId) (page : Page) (notes : List Note) (ranges : List (Nat × Nat)) (ordinal : Nat) :
    State :=
  let lines := touchedLines page.lines ranges
  ((s.setPlanes (s.planes.setPage i { page with notes := notes })).restartPaintTimers).rerender
    { command := r, lines, tiles := rerenderTiles page.lines lines, id := r.u16 4, ordinal }

/-- R127: an accepted NOTE_PAINT. -/
def State.paint (s : State) (r : Record) (i : PlaneId) (page : Page) (style : NoteStyle) : State :=
  let n := paintedNote r style page.glyphCount
  let s := s.raiseIf (page.glyphCount - 1 < paintEnd r || toneClamped style (r.u8 7)) .paramClamped
  let old := match findNote n.id page.notes with
    | some m => m.range
    | none => []
  s.repaint r i page (insertNote n (eraseNote n.id page.notes)) (n.range ++ old) (paintStart r)

/-- NOTE_PAINT (R126, R127, R129, R130). -/
def execNotePaint (s : State) : Host.Outcome State Fault Refusal :=
  .next (s.execute kindNotePaint fun r s =>
    match paintRefusal s.frontPage r, s.frontPage, styleOf (r.u8 6) with
    | some why, _, _ => s.commandRefused why r.kind r.tag (r.u16 4) (paintStart r)
    | none, some (i, page), some style => s.paint r i page style
    | none, _, _ => s)

/-- NOTE_ERASE (R126, R128, R129, R130). -/
def execNoteErase (s : State) : Host.Outcome State Fault Refusal :=
  .next (s.execute kindNoteErase fun r s =>
    match s.frontPage with
    | none => s.commandRefused .noPage r.kind r.tag (r.u16 4) 0
    | some (i, page) =>
      match findNote (r.u16 4) page.notes with
      | none => s.commandRefused .unknown r.kind r.tag (r.u16 4) 0
      | some n => s.repaint r i page (eraseNote n.id page.notes) n.range 0)

/-! ### Panel, events, queries, stream -/

/-- R165: the rectangle of a REFRESH_REQUEST, clamped and exchanged. -/
def requestRect (r : Record) : Rect :=
  let c0 := min (r.u8 4) 29
  let r0 := min (r.u8 5) 39
  let c1 := min (r.u8 6) 29
  let r1 := min (r.u8 7) 39
  { c0 := min c0 c1, r0 := min r0 r1, c1 := max c0 c1, r1 := max r0 r1 }

/-- R165: one of the four values lies beyond the panel. -/
def requestClamped (r : Record) : Bool := 29 < r.u8 4 || 39 < r.u8 5 || 29 < r.u8 6 || 39 < r.u8 7

/-- REFRESH_REQUEST (R164, R165). -/
def execRefreshRequest (s : State) : Host.Outcome State Fault Refusal :=
  .next (s.executeReleasing kindRefreshRequest fun r s =>
    match s.planes.find .shown, modeOf (r.u8 8) with
    | none, _ => s.commandRefused .noPage r.kind r.tag (r.u8 8) 0
    | some _, none => s.commandRefused .badMode r.kind r.tag (r.u8 8) 0
    | some _, some mode => (s.raiseIf (requestClamped r) .paramClamped).arrive .request mode (requestRect r))

/-- The acknowledge set of an EVENT_ACK (11.4). -/
def ackSet (r : Record) : BitVec 16 := BitVec.ofNat 16 (r.u16 4)

/-- EVENT_ACK (R188, R30). -/
def execEventAck (s : State) : Host.Outcome State Fault Refusal :=
  .next (s.executeReleasing kindEventAck fun r s =>
    let s := s.setEvents (s.events.acknowledge (ackSet r))
    if (ackSet r).getLsbD EdgeEvent.styleStackError.bit then
      s.setFaces { s.faces with stackError := false, underflow := false }
    else s)

/-- QUERY (R189, R10): the reply replaces any pending reply. -/
def execQuery (s : State) : Host.Outcome State Fault Refusal :=
  .next (s.executeReleasing kindQuery fun r s => s.setLink { s.link with reply := queryReply s r, replaced := true })

/-- R114 and R111: the composing plane becomes FREE; no grant follows, since the pending page is discarded in the same event. -/
def Planes.dropComposing (p : Planes) : Planes :=
  match p.find .composing with
  | none => p
  | some i => p.free i

/-- STREAM_RESET (R12, R33, R57, R114, R125). -/
def execStreamReset (s : State) : Host.Outcome State Fault Refusal :=
  .next (s.executeReleasing kindStreamReset fun _ s =>
    ((((s.setComp Composer.reset).setFaces
      { s.faces with current := 0, shift := 0, stack := [], stackError := false, underflow := false }).setPlanes
      s.planes.dropComposing).setNotes { s.notes with openIds := [] }).setCmd { s.cmd with streamHold := s.cmd.streamHold - 1 })

/-- R182, steps 1 to 4: the frame in hand is cut, every lane becomes IDLE with its record as it stands, the transmit order is emptied and ABORT is sent. DESIGN
CHOICE (log 23): a frame that the transmitter has taken is part-way out, and is cut with a break, even where none of its bytes may have gone out yet. -/
def LaneController.abort (l : LaneController) : LaneController :=
  { l with
    lane := mapVector (fun _ x => { x with state := .idle }) l.lane
    order := []
    tx := none
    sent := l.sent ++ (match l.tx with
      | some i => [.cut i l.lane[i].seq]
      | none => []) ++ [.abort] }

/-- R153 and R182: the tiles of every busy lane's rectangle become unknown. -/
def abandonTiles (l : LaneController) (v : Vector Tile 1200) : Vector Tile 1200 :=
  (l.lane.toList.filterMap Lane.rect?).foldl (fun v q => mapTiles q Tile.unknown v) v

/-- R170, steps 3 and 4, and R182: the FULL request of source FLIP for all tiles joins the empty queue and goes to lane 0 at once, every lane being IDLE, whatever
the priority floor (DEDUCED, log 21). -/
def State.refreshAll (s : State) : State :=
  let s := s.enqueue .flip .full wholePanel
  match dispatchAbove 0 s with
  | none => s
  | some t => t

/-- PANEL_RESET (R182, R113, R170): the Lane Controller's part, then the Plane Manager's, then the Refresh Planner's. A request released ahead of it is removed with
all others (R133, R170), before any dispatch (DEDUCED, log 20). -/
def execPanelReset (s : State) : Host.Outcome State Fault Refusal :=
  .next (s.execute kindPanelReset fun _ s =>
    let s := s.queueHold
    let s := (s.setPlanner { s.planner with tiles := abandonTiles s.lanes s.planner.tiles }).setLanes s.lanes.abort
    let s := (s.setPlanes { s.planes with showing := [] }).retire
    let s := s.setPlanner { s.planner with queue := [], flipCounter := 0, fullNext := true }
    match s.planes.find .shown with
    | none => s
    | some _ => s.refreshAll)

end Sys2Proof.Machine
end

