-- ==== Sys2Proof/Machine/PageRecords.lean ====
section
/-! DEFINITION. The content records of chapters 4, 6 and 7 as the Composer takes them: pages, paragraphs, runs of text, the re-append of a carry, notes, and
records of an unassigned kind. -/

namespace Sys2Proof.Machine

open Sys2Proof

/-! ### Pages (6.4, 6.5) -/

/-- R99 to R101: the frame is clamped, and the page opens on an available plane, or becomes a pending open with its record kept at the ring's head. -/
def State.startPage (s : State) (r : Record) : State :=
  let frame := clampFrame (r.u16 8) (r.u16 10) (r.u16 12) (r.u16 14)
  let number := BitVec.ofNat 32 (r.u32 4)
  let s := s.raiseIf frame.clamped .paramClamped
  match s.planes.available with
  | some i => (s.openPage i number frame).release
  | none => s.setComp { s.comp with state := .waitPlane (.opening number frame) }

/-- PAGE_OPEN (R99 to R102): in COMPOSING the open page is first closed as a PAGE_CLOSE HOLD would close it, with SEQUENCE_ERROR; if that turns into PAGE_FULL
handling, the record stops there (R75). -/
def execPageOpen (s : State) : Host.Outcome State Fault Refusal :=
  .next (takeRecord s kindPageOpen (· == 16) false fun r =>
    match s.comp.state with
    | .composing => match s.endParagraph with
      | .full s => s
      | .placed s => (s.closePage.raise .sequenceError).startPage r
    | .idle => s.startPage r
    | .waitPlane _ => s)

/-- R103, step 5: the page just closed is flipped. -/
def State.flipReady (s : State) : State :=
  match s.planes.find .ready with
  | none => s
  | some i => s.flip i

/-- PAGE_CLOSE (R103, R77). -/
def execPageClose (s : State) : Host.Outcome State Fault Refusal :=
  .next (takeRecord s kindPageClose (· == 5) true fun r =>
    if 1 < r.u8 4 then (s.raise .recordError).release
    else match s.endParagraph with
      | .full s => s
      | .placed s => if r.u8 4 = 1 then s.closePage.flipReady.release else s.closePage.release)

/-! ### Paragraphs and text (4.2 to 4.4) -/

/-- R70, steps 3 and 4: the indent is clamped to 0..W - 64 and the paragraph opens. -/
def State.openParagraph (s : State) (r : Record) (a : Alignment) : State :=
  let width := match s.composingPage with
    | none => 0
    | some (_, page) => page.frame.width
  let s := s.raiseIf (width - 64 < r.u16 5) .paramClamped
  s.setComp { s.comp with
    para := some { alignment := a, indent := min (r.u16 5) (width - 64), spaceBefore := r.u8 7, firstDone := false } }

/-- PARA_START (R70). -/
def execParaStart (s : State) : Host.Outcome State Fault Refusal :=
  .next (takeRecord s kindParaStart (· == 8) true fun r =>
    match alignmentOf (r.u8 4) with
    | none => (s.raise .recordError).release
    | some a => match (if s.comp.para.isSome then s.endParagraph else .placed s) with
      | .full s => s
      | .placed s => (s.openParagraph r a).release)

/-- PARA_END (R71). -/
def execParaEnd (s : State) : Host.Outcome State Fault Refusal :=
  .next (takeRecord s kindParaEnd (· == 4) true fun _ =>
    match s.endParagraph with
    | .full s => s
    | .placed s => s.release)

/-- 4.2: the number of entries of a TEXT_RUN. -/
def runEntries (r : Record) : Nat := (r.length - 4) / 3

/-- R55: the entry index after a step; a run whose last entry is taken is finished. -/
def State.runTo (s : State) (count index : Nat) : State :=
  if count ≤ index then (s.setComp { s.comp with index := 0 }).release else s.setComp { s.comp with index := index }

/-- TEXT_RUN_ENTRY (R55, R59): a run taken with a null current face is dropped (R27); a run without entries left is finished; otherwise the entry at the entry index
is appended, with what its append leads to. PAGE_FULL handling keeps the run at the ring's head with its index (R75). -/
def execTextRunEntry (s : State) : Host.Outcome State Fault Refusal :=
  .next (takeRecord s kindTextRun (fun n => (n - 4) % 3 == 0) true fun r =>
    let i := s.comp.index
    if s.faces.current = 0 then ((s.faceFault .nullFace r 0 s.comp.nextOrdinal).setComp { s.comp with index := 0 }).release
    else if runEntries r ≤ i then s.runTo (runEntries r) i
    else if Config.pageOrdinals ≤ s.comp.nextOrdinal then s.pageFull
    else match s.appendNew r (r.u16 (4 + 3 * i)) (r.u8 (6 + 3 * i)) with
      | .full s => s.setComp { s.comp with index := i + 1 }
      | .placed s => s.runTo (runEntries r) (i + 1))

/-- CARRY_REAPPEND (R76): on the open continuation the oldest carried entry is appended again, with its stamp, substituted code, advance and kern class; while a
stream hold lasts, none is. -/
def execCarryReappend (s : State) : Host.Outcome State Fault Refusal :=
  .next (if s.comp.state = .composing && s.cmd.streamHold = 0 then
    match s.comp.carry with
    | [] => s
    | e :: rest =>
      if Config.pageOrdinals ≤ s.comp.nextOrdinal then s.pageFull
      else (((s.setComp { s.comp with carry := rest }).join e).afterAppend e.cls).state
    else s)

/-- UNASSIGNED_RECORD (R54, step 1). -/
def execUnassignedRecord (s : State) : Host.Outcome State Fault Refusal :=
  .next (match s.takable with
    | none => s
    | some r => if streamKinds.contains r.kind then s else (s.raise .recordError).release)

/-! ### Stream notes (7.2) -/

/-- R118: the checks of a NOTE_OPEN, in order. -/
def noteOpenRefusal (s : State) (page : Page) (id : Nat) : Option NoteReason :=
  if id = 0 then some .badId
  else if (findNote id page.notes).isSome then some .duplicate
  else if Config.openNotes ≤ s.notes.openIds.length then some .openFull
  else if Config.pageNotes ≤ page.notes.length then some .listFull
  else none

/-- R118: the note joins the composing page's list, OPEN from the next ordinal, and its id the open-note list. -/
def State.openNote (s : State) (page : Page) (i : PlaneId) (r : Record) (style : NoteStyle) : State :=
  let n : Note := { id := r.u16 4, style, tone := toneOf style (r.u8 7), start := s.comp.nextOrdinal, stop := none,
                    continued := false, closedByPage := false, live := false }
  ((s.raiseIf (toneClamped style (r.u8 7)) .paramClamped).setPlanes
    (s.planes.setPage i { page with notes := insertNote n page.notes })).setNotes { s.notes with openIds := s.notes.openIds ++ [n.id] }

/-- NOTE_OPEN (R117, R118). -/
def execNoteOpen (s : State) : Host.Outcome State Fault Refusal :=
  .next (takeRecord s kindNoteOpen (· == 8) true fun r =>
    match styleOf (r.u8 6), s.composingPage with
    | none, _ => (s.raise .recordError).release
    | some _, none => s.release
    | some style, some (i, page) => match noteOpenRefusal s page (r.u16 4) with
      | some why => (s.noteFault why r (r.u16 4) s.comp.nextOrdinal).release
      | none => (s.openNote page i r style).release)

/-- R120: the open note ends at the last ordinal appended, or is removed if none was appended since it opened. -/
def closeNote (next id : Nat) (l : List Note) : List Note :=
  match findNote id l with
  | none => l
  | some n => if n.start < next then l.map fun m => if m.id = id then { m with stop := some (next - 1) } else m else eraseNote id l

/-- NOTE_CLOSE (R117, R120). -/
def execNoteClose (s : State) : Host.Outcome State Fault Refusal :=
  .next (takeRecord s kindNoteClose (· == 6) true fun r =>
    if s.notes.openIds.contains (r.u16 4) then
      ((s.mapComposingPage fun page => { page with notes := closeNote s.comp.nextOrdinal (r.u16 4) page.notes }).setNotes
        { s.notes with openIds := s.notes.openIds.erase (r.u16 4) }).release
    else (s.noteFault .notOpen r (r.u16 4) s.comp.nextOrdinal).release)

end Sys2Proof.Machine
end

