-- ==== Sys2Proof/Machine/FaceRecords.lean ====
section
/-! DEFINITION. The records of chapter 2 as the Composer takes them: loading and unloading faces, selecting one, the style stack and the baseline shift. -/

namespace Sys2Proof.Machine

open Sys2Proof

/-- R19: a code is defined in a table. -/
def GlyphTable.defines (t : GlyphTable) (code : Nat) : Bool := (t.find code).isSome

/-- The fields of a FACE_LOAD (2.2). -/
def faceOf (r : Record) : Face :=
  { table := r.u8 5, firstCode := r.u16 6, lastCode := r.u16 8, replacement := r.u16 10, hyphen := r.u16 12, space := r.u16 14,
    ascent := r.u8 16, descent := r.u8 17, gap := r.u8 18 }

/-- R19: the table a FACE_LOAD names, if its id is 0..15 and it is READY. -/
def State.readyTable (s : State) (id : Nat) : Option GlyphTable := (s.tableAt id).filter fun t => t.state == .ready

/-- R19, check 4. -/
def badEntry (f : Face) (t : GlyphTable) : Bool :=
  f.lastCode < f.firstCode || f.space == 0 || Config.maxAdvance < f.space || !t.defines f.replacement || !t.defines f.hyphen

/-- R19: the checks of a FACE_LOAD, in order. -/
def faceLoadRefusal (s : State) (h : Nat) (f : Face) : Option FaceReason :=
  if h = 0 || 31 < h then some .range
  else if (s.faces.face h).isSome && 0 < useCount s h then some .inUse
  else match s.readyTable f.table with
    | none => some .tableNotReady
    | some t => if badEntry f t then some .badEntry else none

/-- FACE_LOAD (R17, R19, R20). -/
def execFaceLoad (s : State) : Host.Outcome State Fault Refusal :=
  .next (takeRecord s kindFaceLoad (· == 19) false fun r =>
    match faceLoadRefusal s (r.u8 4) (faceOf r) with
    | some why => (s.faceFault why r (r.u8 4) 0).release
    | none => (s.setFaces (s.faces.setFace (r.u8 4) (some (faceOf r)))).release)

/-- FACE_UNLOAD (R17, R21). -/
def execFaceUnload (s : State) : Host.Outcome State Fault Refusal :=
  .next (takeRecord s kindFaceUnload (· == 5) false fun r =>
    if r.u8 4 = 0 || 31 < r.u8 4 then (s.faceFault .range r (r.u8 4) 0).release
    else if (s.faces.face (r.u8 4)).isSome && 0 < useCount s (r.u8 4) then (s.faceFault .inUse r (r.u8 4) 0).release
    else (s.setFaces (s.faces.setFace (r.u8 4) none)).release)

/-- R25: the checks of a selection. -/
def selectRefusal (t : FaceTable) (h : Nat) : Option FaceReason :=
  if 31 < h then some .range else if h ≠ 0 && (t.face h).isNone then some .absent else none

/-- FACE_SELECT (R17, R25). -/
def execFaceSelect (s : State) : Host.Outcome State Fault Refusal :=
  .next (takeRecord s kindFaceSelect (· == 5) true fun r =>
    match selectRefusal s.faces (r.u8 4) with
    | some why => (s.faceFault why r (r.u8 4) 0).release
    | none => (s.setFaces { s.faces with current := r.u8 4 }).release)

/-- STYLE_PUSH (R17, R28). -/
def execStylePush (s : State) : Host.Outcome State Fault Refusal :=
  .next (takeRecord s kindStylePush (· == 4) true fun _ =>
    if s.faces.stack.length < Config.stackDepth then
      (s.setFaces { s.faces with stack := (s.faces.current, s.faces.shift) :: s.faces.stack }).release
    else ((s.setFaces { s.faces with stackError := true }).raise .styleStackError).release)

/-- STYLE_POP (R17, R29). -/
def execStylePop (s : State) : Host.Outcome State Fault Refusal :=
  .next (takeRecord s kindStylePop (· == 4) true fun _ =>
    match s.faces.stack with
    | (face, shift) :: rest => (s.setFaces { s.faces with current := face, shift := shift, stack := rest }).release
    | [] => ((s.setFaces { s.faces with stackError := true, underflow := true }).raise .styleStackError).release)

/-- BASELINE_SHIFT (R17, R31). -/
def execBaselineShift (s : State) : Host.Outcome State Fault Refusal :=
  .next (takeRecord s kindBaselineShift (· == 6) true fun r =>
    let shift := clampInt (-Config.maxShift) Config.maxShift (r.i16 4)
    ((s.setFaces { s.faces with shift := shift }).raiseIf (shift != r.i16 4) .paramClamped).release)

end Sys2Proof.Machine
end

