-- ==== Sys2Proof/Machine/TableRecords.lean ====
section
/-! DEFINITION. The records of chapter 3 as the Composer takes them: beginning, filling, closing and dropping a glyph table. -/

namespace Sys2Proof.Machine

open Sys2Proof

/-- TABLE_FAULT for a record, and the record is finished. -/
def State.refuseTable (s : State) (reason : TableReason) (r : Record) (ordinal : Nat) : State :=
  (s.tableFault reason r (r.u8 4) ordinal).release

/-- 3.3: the 256 kern values of a TABLE_BEGIN as sent. -/
def sentKern (r : Record) : List Int := (List.range 256).map fun i => r.i16 (9 + 2 * i)

/-- R39: the kern values as written. -/
def clampedKern (r : Record) : List Int := (sentKern r).map (clampInt Config.minKern Config.maxKern)

/-- R38: the checks of a TABLE_BEGIN, in order. -/
def tableBeginRefusal (s : State) (id budget : Nat) : Option TableReason :=
  match s.tableAt id with
  | none => some .range
  | some t =>
    if t.state ≠ .empty then some .notEmpty
    else if Config.storeBytes < reservedTotal s + budget then some .noRoom
    else none

/-- TABLE_BEGIN (R37, R38, R39). -/
def execTableBegin (s : State) : Host.Outcome State Fault Refusal :=
  .next (takeRecord s kindTableBegin (· == 521) false fun r =>
    match tableBeginRefusal s (r.u8 4) (r.u32 5) with
    | some why => s.refuseTable why r 0
    | none =>
      ((s.setTable (r.u8 4) { state := .loading, budget := r.u32 5, fill := 0, glyphs := [], kern := clampedKern r }).raiseIf
        (clampedKern r != sentKern r) .paramClamped).release)

/-- R42: run bytes decoded into coverage, rows of `width` pixels. `row` pixels of the present row and `rows` whole rows are covered so far; a run never leaves its
row, and the bytes complete exactly `height` rows. -/
def decodeRuns (width height : Nat) : Nat → Nat → List Byte → Option (List Level)
  | row, rows, [] => if row = 0 && rows = height then some [] else none
  | row, rows, b :: t =>
    let run := b.toNat / 16 + 1
    let level : Level := Fin.ofNat 16 (b.toNat % 16)
    if height ≤ rows || width < row + run then none
    else
      let next := if row + run = width then decodeRuns width height 0 (rows + 1) t else decodeRuns width height (row + run) rows t
      next.map fun l => List.replicate run level ++ l

/-- R42: the bitmap of a GLYPH_DEFINE; a width or height of 0 admits no bytes. -/
def decodeBitmap (width height : Nat) (bytes : List Byte) : Option (List Level) :=
  if width = 0 || height = 0 then (if bytes.isEmpty then some [] else none) else decodeRuns width height 0 0 bytes

/-- The fields of a GLYPH_DEFINE with its decoded bitmap (3.3). -/
def glyphOf (r : Record) (coverage : List Level) : Glyph :=
  { code := r.u16 5, advance := r.u16 7, bearing := r.i8 9, top := r.i8 10, width := r.u8 11, height := r.u8 12, kernClass := r.u8 13, coverage }

/-- R41: the content checks of a GLYPH_DEFINE, in order: what faults the table, or the glyph record it gains. -/
def glyphChecked (t : GlyphTable) (r : Record) : Except TableReason Glyph :=
  if Config.maxAdvance < r.u16 7 || Config.maxSide < r.u8 11 || Config.maxSide < r.u8 12 || 15 < r.u8 13 then .error .field
  else if (t.lastCode.map fun c => decide (r.u16 5 ≤ c)).getD false then .error .order
  else if Config.tableGlyphs ≤ t.glyphs.length then .error .count
  else if t.budget < t.fill + (r.length - 2) then .error .overfill
  else match decodeBitmap (r.u8 11) (r.u8 12) (r.body.drop 10) with
    | none => .error .bitmap
    | some coverage => .ok (glyphOf r coverage)

/-- GLYPH_DEFINE (R37, R40 to R43). -/
def execGlyphDefine (s : State) : Host.Outcome State Fault Refusal :=
  .next (takeRecord s kindGlyphDefine (14 ≤ ·) false fun r =>
    match s.tableAt (r.u8 4) with
    | none => s.refuseTable .range r 0
    | some t =>
      if t.state ≠ .loading then s.refuseTable .notLoading r t.glyphs.length
      else match glyphChecked t r with
        | .error why => (s.setTable (r.u8 4) { t with state := .faulty }).refuseTable why r t.glyphs.length
        | .ok g => (s.setTable (r.u8 4) { t with fill := t.fill + (r.length - 2), glyphs := t.glyphs ++ [g] }).release)

/-- TABLE_END (R37, R44). -/
def execTableEnd (s : State) : Host.Outcome State Fault Refusal :=
  .next (takeRecord s kindTableEnd (· == 5) false fun r =>
    match s.tableAt (r.u8 4) with
    | none => s.refuseTable .range r 0
    | some t =>
      if t.state ≠ .loading then s.refuseTable .notLoading r t.glyphs.length
      else (s.setTable (r.u8 4) { t with state := .ready }).release)

/-- R45: a present face entry names the table. -/
def namedByFace (t : FaceTable) (id : Nat) : Bool :=
  t.entries.toList.any fun e => match e with
    | some f => f.table == id
    | none => false

/-- TABLE_DROP (R37, R45). -/
def execTableDrop (s : State) : Host.Outcome State Fault Refusal :=
  .next (takeRecord s kindTableDrop (· == 5) false fun r =>
    match s.tableAt (r.u8 4) with
    | none => s.refuseTable .range r 0
    | some t =>
      if t.state = .ready && namedByFace s.faces (r.u8 4) then s.refuseTable .inUse r 0
      else if t.state = .empty then s.release
      else (s.setTable (r.u8 4) GlyphTable.empty).release)

end Sys2Proof.Machine
end

