-- ==== Sys2Proof/Machine/ParamRecords.lean ====
section
/-! DEFINITION. PARAM_SET as the Composer takes it (11.6, R83): the parameter table, the entries in order, and the effects of the parameters set. -/

namespace Sys2Proof.Machine

open Sys2Proof

/-- R193: the range of a parameter; none for an unknown id. -/
def paramRange : Nat → Option (Nat × Nat)
  | 1 => some (0, 64)
  | 2 => some (0, 12)
  | 3 => some (1, 50)
  | 4 => some (0, 8)
  | 5 => some (1, 15)
  | 6 => some (0, 3)
  | 7 => some (0, 3)
  | 8 => some (0, 3)
  | 9 => some (0, 3)
  | 10 => some (0, 3)
  | 11 => some (0, 3)
  | 12 => some (1, 32)
  | 13 => some (50, 2000)
  | 14 => some (0, 3600)
  | 15 => some (0, 1)
  | 16 => some (16, 255)
  | 17 => some (112, 8000)
  | 18 => some (112, 8000)
  | 19 => some (112, 8000)
  | 20 => some (0, 65535)
  | 21 => some (0, 15)
  | _ => none

/-- R193: a parameter takes a value inside its range; the timeout limits are held in units of 16 ms (R179). -/
def Params.write (p : Params) (id v : Nat) : Params :=
  match id with
  | 1 => { p with stretch := v }
  | 2 => { p with shrink := v }
  | 3 => { p with coalescing := v }
  | 4 => { p with shadeFloor := v }
  | 5 => { p with threshold := v }
  | 6 => { p with priorityFlip := v }
  | 7 => { p with priorityPaint := v }
  | 8 => { p with priorityRequest := v }
  | 9 => { p with prioritySettle := v }
  | 10 => { p with priorityCleanup := v }
  | 11 => { p with floor := v }
  | 12 => { p with fullEvery := v }
  | 13 => { p with settle := v }
  | 14 => { p with sweep := v }
  | 15 => { p with continuous := v == 1 }
  | 16 => { p with residueLimit := v }
  | 17 => { p with limitFull := v / 16 }
  | 18 => { p with limitGrey := v / 16 }
  | 19 => { p with limitFast := v / 16 }
  | 20 => { p with edgeMask := BitVec.ofNat 16 v }
  | 21 => { p with levelMask := BitVec.ofNat 4 v }
  | _ => p

/-- What the entries of a PARAM_SET have come to so far: the values, whether an id was unknown, a value clamped, a sweep parameter set. -/
structure ParamPass where
  params  : Params
  unknown : Bool
  clamped : Bool
  sweep   : Bool
  deriving DecidableEq, Repr

/-- R192: one entry. -/
def ParamPass.entry (a : ParamPass) (id v : Nat) : ParamPass :=
  match paramRange id with
  | none => { a with unknown := true }
  | some (lo, hi) =>
    { params := a.params.write id (clampNat lo hi v), unknown := a.unknown, clamped := a.clamped || v < lo || hi < v,
      sweep := a.sweep || id == 14 || id == 15 }

/-- R192: the entries of a PARAM_SET, in order. -/
def paramEntries (r : Record) : List (Nat × Nat) :=
  (List.range ((r.length - 4) / 3)).map fun i => (r.u8 (4 + 3 * i), r.u16 (5 + 3 * i))

/-- R192: all entries applied. -/
def paramPass (p : Params) (r : Record) : ParamPass :=
  (paramEntries r).foldl (fun a e => a.entry e.1 e.2) { params := p, unknown := false, clamped := false, sweep := false }

/-- R168: a PARAM_SET that names a sweep parameter restarts the timer once. -/
def State.sweepIf (s : State) (c : Bool) : State := if c then s.restartSweep else s

/-- R161: a change of the priority floor brings an attempt to dispatch. -/
def State.dispatchIf (s : State) (c : Bool) : State := if c then attemptDispatch s else s

/-- R192: the values, and the effects and events of setting them. -/
def State.applyParams (s : State) (a : ParamPass) : State :=
  ((((s.setParams a.params).sweepIf a.sweep).dispatchIf (a.params.floor != s.params.floor)).raiseIf a.unknown .recordError).raiseIf
    a.clamped .paramClamped

/-- R83: the break test of a changed shrink factor, made while the line buffer holds entries; if it turns into PAGE_FULL handling, the record stays at the ring's
head, marked as applied. -/
def State.shrinkTest (s : State) : State :=
  match s.breakTest with
  | .full s => s.setComp { s.comp with applied := true }
  | .placed s => (s.setComp { s.comp with applied := false }).release

/-- PARAM_SET (R192, R193, R83): taken again after PAGE_FULL handling, it only tests the continuation's pending line. -/
def execParamSet (s : State) : Host.Outcome State Fault Refusal :=
  .next (takeRecord s kindParamSet (fun n => (n - 4) % 3 == 0 && (n - 4) / 3 ≤ 32) false fun r =>
    if s.comp.applied then s.shrinkTest
    else
      let a := paramPass s.params r
      let t := s.applyParams a
      if a.params.shrink != s.params.shrink && !t.comp.buffer.isEmpty then t.shrinkTest else t.release)

end Sys2Proof.Machine
end

