-- ==== Sys2Proof/Machine/LaneEvents.lean ====
section
/-! DEFINITION. The events of the Panel Link and the Timer Bank (chapters 9 and 10): a send's end, completion frames, timeouts, timer expiries and the tick. -/

namespace Sys2Proof.Machine

open Sys2Proof

/-! ### Send ends (10.3) -/

/-- R175: the lane whose frame is finished becomes WAITING and leaves the transmit order; the frame, as R149 and R174 give it from the plane read, stands on
PNL_TX. -/
def LaneController.endSend (l : LaneController) (i : Fin 4) (px : PlaneId → Pixels) : LaneController :=
  { l with
    lane := l.lane.set i { l.lane[i] with state := .waiting, elapsed := 0 }
    order := l.order.erase i
    tx := none
    sent := l.sent ++ (match l.lane[i].update with
      | some u => [.update i l.lane[i].seq u.mode u.rect (frameLevels u.mode u.threshold u.rect (px u.plane))]
      | none => []) }

/-- The plane a lane's update reads is the front plane. -/
def Lane.readsFront (l : Lane) (p : Planes) : Bool :=
  match l.update with
  | some u => p.find .shown == some u.plane
  | none => false

/-- R130: a send end from the front plane tests a held re-render. -/
def State.testHeldIf (s : State) (c : Bool) : State := if c then s.testHeld else s

/-- SEND_END (R175, R110, R130): the transmitter sends the last byte of the frame in hand; without one, nothing ends. -/
def execSendEnd (s : State) : Host.Outcome State Fault Refusal :=
  .next (match s.lanes.tx with
    | none => s
    | some i =>
      let t := (s.setLanes (s.lanes.endSend i fun p => (s.planes.get p).pixels)).retire.testHeldIf (s.lanes.lane[i].readsFront s.planes)
      t.setLanes t.lanes.feed)

/-! ### Completion frames (10.3) -/

/-- R176: a whole frame is matched: its lane is WAITING and its sequence field equals the lane's number. -/
def matchedLane (l : LaneController) (lane seq : Byte) : Option (Fin 4) :=
  laneIds.find? fun i => lane.toNat == i.val && l.lane[i].state == .waiting && l.lane[i].seq == seq

/-- R178: the last duration of a mode. -/
def LaneController.setLast (l : LaneController) (m : Mode) (d : Tick) : LaneController :=
  match m with
  | .full => { l with lastFull := d }
  | .grey => { l with lastGrey := d }
  | .fast => { l with lastFast := d }

/-- A lane leaves its state for another, with its record as it stands. -/
def LaneController.setState (l : LaneController) (i : Fin 4) (x : LaneState) : LaneController :=
  { l with lane := l.lane.set i { l.lane[i] with state := x } }

/-- R166: the settle timer starts at the end of an OK FAST update. -/
def State.startSettleIf (s : State) (c : Bool) : State := if c then s.startSettle else s

/-- R107: a showing lane's update ended by a completion frame raises PAGE_SHOWN and clears the show report. -/
def State.reportShown (s : State) (i : Fin 4) : State :=
  if s.planes.showing.contains i then (s.setPlanes { s.planes with showPending := false, showing := [] }).raise .pageShown else s

/-- R152 and R153: the tiles of an update's rectangle, at its end with this result. -/
def endTiles (u : Update) (ok : Bool) (v : Vector Tile 1200) : Vector Tile 1200 :=
  mapTiles u.rect (fun t => if ok then t.updated u.mode else t.unknown) v

/-- R177: a matched frame ends the update in its lane. -/
def State.endUpdate (s : State) (i : Fin 4) (u : Update) (ok : Bool) : State :=
  let s := s.setPlanner { s.planner with tiles := endTiles u ok s.planner.tiles }
  let s := s.startSettleIf (ok && u.mode == .fast)
  let s := s.setLanes (s.lanes.setLast u.mode (s.tick - u.started))
  let s := (s.raiseIf (!ok) .updateFailed).reportShown i
  attemptDispatch (s.setLanes (s.lanes.setState i .idle))

/-- R176 to R178: a whole completion frame. -/
def State.takeFrame (s : State) (lane seq result : Byte) : State :=
  match matchedLane s.lanes lane seq with
  | none => s.raise .lateDone
  | some i => match s.lanes.lane[i].update with
    | none => s.raise .lateDone
    | some u => s.endUpdate i u (result == 0)

/-- The receiver's fields are replaced. -/
def State.setRx (s : State) (x : Option (List Byte)) : State := s.setLanes { s.lanes with rx := x }

/-- R176: a byte on PNL_RX. -/
def State.receive (s : State) (b : Byte) : State :=
  match s.lanes.rx with
  | none => if b = 0xC1 then s.setRx (some []) else s
  | some [lane, seq] => (s.setRx none).takeFrame lane seq b
  | some got => s.setRx (some (got ++ [b]))

/-- The next byte on PNL_RX completes a frame. -/
def LaneController.frameNext (l : LaneController) : Bool :=
  match l.rx with
  | some got => got.length == 2
  | none => false

/-- COMPLETION_FRAME (R176 to R178): the result field arrives and the frame is taken. -/
def execCompletionFrame (result : Byte) (s : State) : Host.Outcome State Fault Refusal :=
  .next (if s.lanes.frameNext then s.receive result else s)

/-- PNL_RX_BYTE (R176): a byte between frames is skipped or begins one; inside a frame it fills the next field. Where it fills the result field, the event is also a
COMPLETION_FRAME, and has its effect. -/
def execPnlRxByte (b : Byte) (s : State) : Host.Outcome State Fault Refusal := .next (s.receive b)

/-- PNL_RX_BREAK (R176): a partly received frame is discarded. -/
def execPnlRxBreak (s : State) : Host.Outcome State Fault Refusal := .next (s.setRx none)

/-! ### Timeouts and timers (10.4, 7.8, 9.8, 9.9) -/

/-- R179: a WAITING lane has reached its limit. -/
def Lane.expired (l : Lane) : Bool :=
  l.state == .waiting && (match l.update with
    | some u => u.limit ≤ l.elapsed / 16
    | none => false)

/-- R180: a lane times out. -/
def State.timeout (s : State) (i : Fin 4) : State :=
  match s.lanes.lane[i].update with
  | none => s
  | some u =>
    let s := s.setPlanner { s.planner with tiles := mapTiles u.rect Tile.unknown s.planner.tiles }
    let s := s.setPlanes { s.planes with showing := s.planes.showing.erase i }
    attemptDispatch (s.setLanes (s.lanes.setState i .faulted))

/-- LANE_TIMEOUT (R179, R180). -/
def execLaneTimeout (lane : Nat) (s : State) : Host.Outcome State Fault Refusal :=
  if h : lane < 4 then .next (if s.lanes.lane[lane].expired then s.timeout ⟨lane, h⟩ else s) else .fault .illFormed

/-- COALESCING_TIMER_EXPIRY (R135): the deadline has passed and all four slots are free. -/
def execCoalescingTimerExpiry (s : State) : Host.Outcome State Fault Refusal :=
  .next (if due s.notes.coalesce && slotsTaken s == 0 then s.releaseHold else s)

/-- A request of a source arrives for the bounding box of the tiles that satisfy a test, if a plane is SHOWN and there is such a tile (R167, R169). -/
def State.requestTiles (s : State) (source : Source) (mode : Mode) (p : Tile → Bool) : State :=
  match s.planes.find .shown, boundingBox (positionsFrom p 0 s.planner.tiles.toList) with
  | some _, some q => s.arrive source mode q
  | _, _ => s

/-- SETTLE_TIMER_EXPIRY (R166, R167). -/
def execSettleTimerExpiry (s : State) : Host.Outcome State Fault Refusal :=
  .next (if due s.planner.settle then
    (s.setPlanner { s.planner with settle := none }).requestTiles .settle .grey (·.coarse)
  else s)

/-- SWEEP_TIMER_EXPIRY (R168, R169). -/
def execSweepTimerExpiry (s : State) : Host.Outcome State Fault Refusal :=
  .next (if due s.planner.sweep then
    (if s.params.continuous then s.restartSweep else s.setPlanner { s.planner with sweep := none }).requestTiles .cleanup .full
      fun t => s.params.residueLimit ≤ t.residue
  else s)

/-- R179: the elapsed count of a WAITING lane rises with the tick. -/
def Lane.count (l : Lane) : Lane := if l.state = .waiting then { l with elapsed := l.elapsed + 1 } else l

/-- TICK (00_scope, Time; R179; R135, R166, R168): the tick advances by one, every WAITING lane counts, and a deadline the tick reaches has passed. -/
def execTick (s : State) : Host.Outcome State Fault Refusal :=
  let now := s.tick + 1
  .next ((((s.setTick now).setLanes { s.lanes with lane := mapVector (fun _ x => x.count) s.lanes.lane }).setNotes
    { s.notes with coalesce := s.notes.coalesce.map (Deadline.reach now) }).setPlanner
    { s.planner with settle := s.planner.settle.map (Deadline.reach now), sweep := s.planner.sweep.map (Deadline.reach now) })

end Sys2Proof.Machine
end

