-- ==== Sys2Proof/Machine/Dispatch.lean ====
section
/-! DEFINITION. One arm per command: each calls its own meaning. -/

namespace Sys2Proof.Machine

open Sys2Proof

def exec (i : Instr) (s : State) : Host.Outcome State Fault Refusal :=
  match i with
  | .powerOnReset => Sys2Proof.Machine.execPowerOnReset s
  | .transferBegin => Sys2Proof.Machine.execTransferBegin s
  | .transferEnd n => Sys2Proof.Machine.execTransferEnd n s
  | .recordHeader b => Sys2Proof.Machine.execRecordHeader b s
  | .streamRecordEntry b => Sys2Proof.Machine.execStreamRecordEntry b s
  | .commandWhole b => Sys2Proof.Machine.execCommandWhole b s
  | .pageShow => Sys2Proof.Machine.execPageShow s
  | .pageDrop => Sys2Proof.Machine.execPageDrop s
  | .notePaint => Sys2Proof.Machine.execNotePaint s
  | .noteErase => Sys2Proof.Machine.execNoteErase s
  | .refreshRequest => Sys2Proof.Machine.execRefreshRequest s
  | .eventAck => Sys2Proof.Machine.execEventAck s
  | .query => Sys2Proof.Machine.execQuery s
  | .streamReset => Sys2Proof.Machine.execStreamReset s
  | .panelReset => Sys2Proof.Machine.execPanelReset s
  | .pageOpen => Sys2Proof.Machine.execPageOpen s
  | .pageClose => Sys2Proof.Machine.execPageClose s
  | .paraStart => Sys2Proof.Machine.execParaStart s
  | .paraEnd => Sys2Proof.Machine.execParaEnd s
  | .textRunEntry => Sys2Proof.Machine.execTextRunEntry s
  | .carryReappend => Sys2Proof.Machine.execCarryReappend s
  | .unassignedRecord => Sys2Proof.Machine.execUnassignedRecord s
  | .faceLoad => Sys2Proof.Machine.execFaceLoad s
  | .faceUnload => Sys2Proof.Machine.execFaceUnload s
  | .faceSelect => Sys2Proof.Machine.execFaceSelect s
  | .stylePush => Sys2Proof.Machine.execStylePush s
  | .stylePop => Sys2Proof.Machine.execStylePop s
  | .baselineShift => Sys2Proof.Machine.execBaselineShift s
  | .noteOpen => Sys2Proof.Machine.execNoteOpen s
  | .noteClose => Sys2Proof.Machine.execNoteClose s
  | .tableBegin => Sys2Proof.Machine.execTableBegin s
  | .glyphDefine => Sys2Proof.Machine.execGlyphDefine s
  | .tableEnd => Sys2Proof.Machine.execTableEnd s
  | .tableDrop => Sys2Proof.Machine.execTableDrop s
  | .paramSet => Sys2Proof.Machine.execParamSet s
  | .sendEnd => Sys2Proof.Machine.execSendEnd s
  | .completionFrame b => Sys2Proof.Machine.execCompletionFrame b s
  | .pnlRxBreak => Sys2Proof.Machine.execPnlRxBreak s
  | .laneTimeout n => Sys2Proof.Machine.execLaneTimeout n s
  | .coalescingTimerExpiry => Sys2Proof.Machine.execCoalescingTimerExpiry s
  | .settleTimerExpiry => Sys2Proof.Machine.execSettleTimerExpiry s
  | .sweepTimerExpiry => Sys2Proof.Machine.execSweepTimerExpiry s
  | .inboundByte b => Sys2Proof.Machine.execInboundByte b s
  | .pnlRxByte b => Sys2Proof.Machine.execPnlRxByte b s
  | .tick => Sys2Proof.Machine.execTick s

end Sys2Proof.Machine
end

