-- ==== Sys2Proof/Machine/Step.lean ====
section
/-! DEFINITION. One step of the machine: the step at the front of the model's queue is taken. -/

namespace Sys2Proof.Machine

open Sys2Proof

/-- A command goes to the front of the queue. -/
def State.push (s : State) (i : Instr) : State := s.setPending (i :: s.pending)

/-- The command at the front of the queue is executed on the state with the queue's rest; on an empty queue the block idles (log 1). -/
def step (s : State) : Host.Outcome State Fault Refusal :=
  match s.pending with
  | [] => .next s
  | i :: rest => exec i (s.setPending rest)

/-- The state with the command that a word spells at the front of its queue; unchanged where the word spells none, as every word does here. -/
def State.withFetchWord (s : State) (nbits w : Nat) : State :=
  match decodeTableWord nbits w with
  | some i => s.push i
  | none => s

end Sys2Proof.Machine
end

