-- ==== Sys2Proof/Safety.lean ====
section
/-! DEFINITION. What a safe state is, in the terms the claims use: the bounds and laws that the manual states of each block, one predicate a block,
and what it means that a record stands before the Composer or a command before the Command Unit. -/

namespace Sys2Proof.Machine

open Sys2Proof

/-! ### A record or a command at hand -/

/-- R53 and R76: `r` stands at the ring's head with `rest` behind it, and the Composer takes it: it is not in WAIT_PLANE, no stream hold lasts and no
carried entry is left to re-append. -/
def Takes (s : State) (r : Record) (rest : List Record) : Prop :=
  s.ring = r :: rest ∧ s.comp.state.waiting = false ∧ s.cmd.streamHold = 0 ∧ s.comp.carry = []

/-- `Takes` with a page open, which every content record but PAGE_OPEN needs (R54). -/
def TakesInPage (s : State) (r : Record) (rest : List Record) : Prop :=
  s.ring = r :: rest ∧ s.comp.state = .composing ∧ s.cmd.streamHold = 0 ∧ s.comp.carry = []

/-- R9: the Command Unit is IDLE, and `r` is the oldest queued command, with `rest` behind it. -/
def Commands (s : State) (r : Record) (rest : List Record) : Prop :=
  s.cmd.queued = r :: rest ∧ s.cmd.executing = none

/-- The state once that command has been taken from the queue, and the hold set released as R133 has it for all but paints and erases; PAGE_SHOW with a READY
page and PANEL_RESET cancel the request released before it can be dispatched. -/
def takenFrom (s : State) (rest : List Record) : State := State.releaseHold { s with cmd := { s.cmd with queued := rest } }

/-- A state with an event raised that keeps no detail. -/
def withEvent (s : State) (e : EdgeEvent) : State := { s with events := s.events.mark e }

/-- The records of an assigned kind (1.3): the Composer's step, the kind, the lengths that suit it (2.2, 3.3, 4.2, 6.4, 7.2, 11.6), and whether it is a content record
that IDLE discards (R53). -/
def composerRecords : List (Instr × Byte × (Nat → Bool) × Bool) :=
  [(.pageOpen, 0x01, (· == 16), false), (.pageClose, 0x02, (· == 5), true), (.paraStart, 0x03, (· == 8), true),
   (.paraEnd, 0x04, (· == 4), true), (.textRunEntry, 0x05, fun n => (n - 4) % 3 == 0, true), (.faceSelect, 0x06, (· == 5), true),
   (.stylePush, 0x07, (· == 4), true), (.stylePop, 0x08, (· == 4), true), (.baselineShift, 0x09, (· == 6), true),
   (.noteOpen, 0x0A, (· == 8), true), (.noteClose, 0x0B, (· == 6), true), (.faceLoad, 0x10, (· == 19), false),
   (.faceUnload, 0x11, (· == 5), false), (.tableBegin, 0x12, (· == 521), false), (.glyphDefine, 0x13, (14 ≤ ·), false),
   (.tableEnd, 0x14, (· == 5), false), (.tableDrop, 0x15, (· == 5), false),
   (.paramSet, 0x18, fun n => (n - 4) % 3 == 0 && (n - 4) / 3 ≤ 32, false)]

/-- The steps of the Composer. -/
def composerSteps : List Instr := .unassignedRecord :: .carryReappend :: composerRecords.map (·.1)

/-- R193: every parameter with its id and range, timeout limits in ms. -/
def paramTable : List (Nat × Nat × Nat) :=
  [(1, 0, 64), (2, 0, 12), (3, 1, 50), (4, 0, 8), (5, 1, 15), (6, 0, 3), (7, 0, 3), (8, 0, 3), (9, 0, 3), (10, 0, 3), (11, 0, 3),
   (12, 1, 32), (13, 50, 2000), (14, 0, 3600), (15, 0, 1), (16, 16, 255), (17, 112, 8000), (18, 112, 8000), (19, 112, 8000),
   (20, 0, 65535), (21, 0, 15)]

/-- R193: the value of the parameter with an id; timeout limits in units of 16 ms (R179). -/
def Params.read (p : Params) (id : Nat) : Nat :=
  ([0, p.stretch, p.shrink, p.coalescing, p.shadeFloor, p.threshold, p.priorityFlip, p.priorityPaint, p.priorityRequest,
    p.prioritySettle, p.priorityCleanup, p.floor, p.fullEvery, p.settle, p.sweep, if p.continuous then 1 else 0, p.residueLimit,
    p.limitFull, p.limitGrey, p.limitFast, p.edgeMask.toNat, p.levelMask.toNat] : List Nat).getD id 0

/-- R155: the request that arrived in place `i` of a queue stands ahead of the one in place `j` in dispatch order. -/
def standsAhead (q : List Request) (i j : Nat) : Prop :=
  ∃ p p', q[i]? = some p ∧ q[j]? = some p' ∧
    (p'.priority < p.priority ∨ (p.priority = p'.priority ∧ p'.source.rank < p.source.rank) ∨
      (p.priority = p'.priority ∧ p.source.rank = p'.source.rank ∧ i < j))

/-- R158: a request may be dispatched: at or above the priority floor, sharing no tile with a busy lane or with a request that stands ahead of it. -/
def eligible (s : State) (k : Nat) (r : Request) : Prop :=
  s.planner.queue[k]? = some r ∧ s.params.floor ≤ r.priority ∧ s.lanes.blocks r.rect = false ∧
    ∀ j p, s.planner.queue[j]? = some p → standsAhead s.planner.queue j k → p.rect.meets r.rect = false

/-! ### Chapter 1 -/

/-- 1.2: what a framing state has received is less than the whole. -/
def Framing.Safe : Framing → Prop
  | .between => True
  | .header got => 1 ≤ got.length ∧ got.length ≤ 3
  | .bodyStream _ _ len got => got.length + 4 < len ∧ len ≤ 2048
  | .bodyCommand kind _ len got => got.length + 4 < len ∧ commandLength kind = some len
  | .skipCommand left => 0 < left
  | .skipRest => True

/-- R7, R8 and R11: the ring never holds more than its 32,768 bytes nor the queue more than four commands; the stream hold count is the number of
STREAM_RESET commands accepted and not yet executed; every queued command has the length of its kind. -/
def LinkSafe (s : State) : Prop :=
  s.link.framing.Safe ∧ fill s ≤ 32768 ∧ slotsTaken s ≤ 4 ∧
  s.cmd.streamHold = (s.cmd.queued.filter fun r => r.kind == kindStreamReset).length ∧
  (∀ r ∈ s.cmd.queued, commandLength r.kind = some r.length) ∧ (∀ r ∈ s.ring, r.length ≤ 2048)

/-! ### Chapter 2 -/

/-- A handle that stands for no face, or for a present one. -/
def FaceTable.Present (t : FaceTable) (h : Nat) : Prop := h = 0 ∨ (t.face h).isSome = true

/-- R22: the entries of the line buffer and the placements of a page stand in the face set of its plane. -/
def Page.SetCovers (page : Page) (buffer : List Entry) : Prop :=
  (∀ p ∈ page.placements, p.face = 0 ∨ p.face ∈ page.faceSet) ∧ (∀ e ∈ buffer, e.face = 0 ∨ e.face ∈ page.faceSet)

/-- A present face's table is READY and defines its replacement and hyphen codes (R19, 2.1). -/
def Face.Safe (g : Vector GlyphTable 16) (f : Face) : Prop :=
  ∃ t, g[f.table]? = some t ∧ t.state = .ready ∧ (t.find f.replacement).isSome = true ∧ (t.find f.hyphen).isSome = true ∧
    f.firstCode ≤ f.lastCode ∧ 1 ≤ f.space ∧ f.space ≤ 16383

/-- Chapter 2: whatever the composer can still reach through a handle is present, a present face names a READY table, and the stack and the shift lie
within their bounds. -/
def FaceSafe (s : State) : Prop :=
  s.faces.stack.length ≤ 8 ∧ (-64 ≤ s.faces.shift ∧ s.faces.shift ≤ 64) ∧ (∀ e ∈ s.faces.stack, -64 ≤ e.2 ∧ e.2 ≤ 64) ∧
  s.faces.Present s.faces.current ∧ (∀ e ∈ s.faces.stack, s.faces.Present e.1) ∧
  (∀ h ∈ s.planes.a.faceSet, s.faces.Present h) ∧ (∀ h ∈ s.planes.b.faceSet, s.faces.Present h) ∧
  (∀ e ∈ s.comp.carry, s.faces.Present e.face) ∧
  (∀ x, s.planes.a.held = some x → x.page.SetCovers (if x.part = .composing then s.comp.buffer else [])) ∧
  (∀ x, s.planes.b.held = some x → x.page.SetCovers (if x.part = .composing then s.comp.buffer else [])) ∧
  (∀ f ∈ s.faces.entries.toList, ∀ x, f = some x → x.Safe s.glyphs)

/-! ### Chapter 3 -/

/-- 3.4: the fields of a glyph record lie in their ranges, and its bitmap has width × height values. -/
def Glyph.Safe (g : Glyph) : Prop :=
  g.advance ≤ 16383 ∧ g.width ≤ 224 ∧ g.height ≤ 224 ∧ g.kernClass ≤ 15 ∧ g.coverage.length = g.width * g.height

/-- 3.2: the fields of a table record lie in their ranges, and its codes are strictly ascending. -/
def GlyphTable.Safe (t : GlyphTable) : Prop :=
  t.fill ≤ t.budget ∧ t.glyphs.length ≤ 4096 ∧ t.glyphs.Pairwise (fun g h => g.code < h.code) ∧ (∀ g ∈ t.glyphs, g.Safe) ∧
  t.kern.length = 256 ∧ (∀ k ∈ t.kern, -512 ≤ k ∧ k ≤ 511) ∧ (t.state = .empty → t = GlyphTable.empty)

/-- R35: the budgets fit the store, and every table keeps to its own. -/
def StoreSafe (s : State) : Prop := reservedTotal s ≤ 786432 ∧ ∀ t ∈ s.glyphs.toList, t.Safe

/-! ### Chapters 4 to 6 -/

/-- R96: the pairs of parts that the two planes can play. -/
def PlanePair : Option Part → Option Part → Prop
  | none, none => True
  | none, some x => x ≠ .retiring
  | some x, none => x ≠ .retiring
  | some .shown, some x => x ≠ .shown
  | some x, some .shown => x ≠ .shown
  | some _, some _ => False

/-- Some plane is SHOWN. -/
def Shown (s : State) : Prop := (s.planes.find .shown).isSome = true

/-- R96, R106, R107, R110, R130 and R155: the laws of the planes; the Composer is COMPOSING exactly while a plane is; a SENDING lane reads the SHOWN or the
RETIRING plane, and a plane is RETIRING only while a lane sends from it; requests and held tiles stand only while a plane is SHOWN; and a
re-render is held only while a lane sends one of its tiles from the front plane. -/
def PlaneSafe (s : State) : Prop :=
  PlanePair s.planes.a.part s.planes.b.part ∧
  (s.comp.state = .composing ↔ (s.planes.find .composing).isSome = true) ∧
  (s.planes.showing ≠ [] → s.planes.showPending = true) ∧
  (s.planner.queue ≠ [] → Shown s) ∧ (s.notes.tiles ≠ [] → Shown s) ∧
  (∀ x ∈ s.lanes.lane.toList, ∀ i, x.sendsFrom i = true →
    (s.planes.get i).part = some .shown ∨ (s.planes.get i).part = some .retiring) ∧
  (∀ i, (s.planes.get i).part = some .retiring → s.lanes.sendsFrom i = true) ∧
  (∀ h, s.cmd.executing = some h → ∃ i, s.planes.find .shown = some i ∧ sendConflict s.lanes i h.tiles = true)

/-- R97: lines take the ordinals from `n` on in ascending, contiguous runs, none empty, and reach `stop`. -/
def linesCover : Nat → List Line → Nat → Prop
  | n, [], stop => n = stop
  | n, l :: t, stop => l.first = n ∧ 0 < l.count ∧ linesCover (n + l.count) t stop

/-- R97 and R74: a page's lines and placements share its first ordinals, within the limits of a page. -/
def Page.Safe (page : Page) : Prop :=
  page.lines.length ≤ 160 ∧ page.glyphCount ≤ 8192 ∧ linesCover 0 page.lines page.placements.length ∧
  page.placements.map (·.ordinal) = List.range page.placements.length

/-- R97: the page being built: its committed ordinals, then those of the line buffer, up to the next ordinal. -/
def Page.ComposedBy (page : Page) (c : Composer) : Prop :=
  page.glyphCount = c.nextOrdinal ∧ page.placements.length + c.buffer.length = c.nextOrdinal ∧
  c.buffer.map (·.ordinal) = List.range' page.placements.length c.buffer.length ∧
  ∀ p, c.para = some p → p.indent + 64 ≤ page.frame.width

/-- R97: the page of a plane, as the plane's part has it. -/
def Plane.PageSafe (x : Plane) (c : Composer) : Prop :=
  ∀ h, x.held = some h → h.page.Safe ∧
    (h.part = .composing → h.page.ComposedBy c) ∧ (h.part ≠ .composing → h.page.placements.length = h.page.glyphCount)

/-- R99: a frame after its clamp. -/
def Frame.Safe (f : Frame) : Prop := f.left + f.right ≤ 1456 ∧ f.top + f.bottom ≤ 2016

/-- The frame of a pending page. -/
def ComposerState.FrameSafe : ComposerState → Prop
  | .waitPlane (.opening _ f) => f.Safe
  | .waitPlane (.continuation _ f _) => f.Safe
  | .idle | .composing => True

/-- A pending continuation keeps the paragraph of the page it continues, indented within its measure. -/
def ComposerState.IndentSafe (para : Option Para) : ComposerState → Prop
  | .waitPlane (.continuation _ f _) => ∀ p, para = some p → p.indent + 64 ≤ f.width
  | .waitPlane (.opening _ _) | .idle | .composing => True

/-- R59, R68, R69, R74, R76, R97: the line buffer, the carry and the pages they belong to. -/
def ComposerSafe (s : State) : Prop :=
  s.comp.buffer.length < 256 ∧ s.comp.buffer.length + s.comp.carry.length ≤ 256 ∧
  (s.comp.state ≠ .composing → s.comp.buffer = [] ∧ s.comp.nextOrdinal = 0) ∧
  (s.comp.state = .idle → s.comp.carry = [] ∧ s.comp.para = none) ∧
  (∀ n f, s.comp.state = .waitPlane (.opening n f) → s.comp.carry = []) ∧
  (s.comp.para = none → s.comp.buffer = [] ∧ s.comp.carry = []) ∧
  s.comp.state.FrameSafe ∧ s.comp.state.IndentSafe s.comp.para ∧
  s.planes.a.PageSafe s.comp ∧ s.planes.b.PageSafe s.comp ∧
  (∀ h, s.planes.a.held = some h → h.page.frame.Safe) ∧ (∀ h, s.planes.b.held = some h → h.page.frame.Safe)

/-- The pixels of both planes are in canonical form. -/
def PixelSafe (s : State) : Prop := s.planes.a.pixels.wf ∧ s.planes.b.pixels.wf

/-! ### Chapter 7 -/

/-- R116: the fields of a note agree. -/
def Note.Safe (n : Note) : Prop :=
  n.id ≠ 0 ∧ (if n.style = .shade then 1 ≤ n.tone ∧ n.tone ≤ 11 else n.tone = 0) ∧ ∀ e, n.stop = some e → n.start ≤ e

/-- R116: at most 64 notes, no two of one id, in order of start ordinal, then id. -/
def NoteListSafe (l : List Note) : Prop :=
  l.length ≤ 64 ∧ (l.map (·.id)).Nodup ∧ l.Pairwise (fun m n => m.before n = true) ∧ ∀ n ∈ l, n.Safe

/-- The note list of the page that the stream is building: that of the composing page, or the one held for a pending continuation. -/
def streamNotes (s : State) : List Note :=
  match s.comp.state with
  | .composing => (s.composingPage.map fun p => p.2.notes).getD []
  | .waitPlane (.continuation _ _ notes) => notes
  | .waitPlane (.opening _ _) | .idle => []

/-- R116: every CLOSED note ends below `extent` ordinals, and an OPEN one starts at their end at the latest. -/
def NotesBelow (extent : Nat) (l : List Note) : Prop :=
  ∀ n ∈ l, match n.stop with
    | some e => e < extent
    | none => n.start ≤ extent

/-- The ordinals that a page's notes may name: its glyph count and, on the composing page, the carried entries that wait to join it (R76), whose
notes R124 has handed over ahead of them (log 22). -/
def noteExtent (s : State) (x : Held) : Nat := x.page.glyphCount + (if x.part = .composing then s.comp.carry.length else 0)

/-- R116, R119, R123, R124: the note lists and the ordinals they name, the open-note list, and no OPEN note on a page that has left COMPOSING. The notes held
for a pending continuation name carried entries. -/
def NoteSafe (s : State) : Prop :=
  (∀ i x, (s.planes.get i).held = some x →
    NoteListSafe x.page.notes ∧ NotesBelow (noteExtent s x) x.page.notes ∧
    (x.part ≠ .composing → ∀ n ∈ x.page.notes, n.stop.isSome = true)) ∧
  NoteListSafe (streamNotes s) ∧
  (s.comp.state ≠ .composing → NotesBelow s.comp.carry.length (streamNotes s)) ∧
  s.notes.openIds.length ≤ 8 ∧ s.notes.openIds.Nodup ∧
  (∀ id, id ∈ s.notes.openIds ↔ ∃ n ∈ streamNotes s, n.id = id ∧ n.stop = none)

/-! ### Chapters 9 and 10 -/

/-- A busy lane's rectangle has a tile. -/
def Lane.holds (l : Lane) (k : Nat) : Bool :=
  match l.rect? with
  | some q => q.has k
  | none => false

/-- R155, R158, R172, R174 and R107: the queue's bound, the law that no tile lies in the rectangles of two busy lanes, the transmit order, and the showing lanes. -/
def LaneSafe (s : State) : Prop :=
  s.planner.queue.length ≤ 16 ∧
  (∀ i j : Fin 4, ∀ k, i ≠ j → s.lanes.lane[i].holds k = true → s.lanes.lane[j].holds k = false) ∧
  s.lanes.order.Nodup ∧ (∀ i : Fin 4, i ∈ s.lanes.order ↔ s.lanes.lane[i].state = .sending) ∧
  s.lanes.tx = s.lanes.order.head? ∧
  (∀ i : Fin 4, s.lanes.lane[i].state ≠ .idle → s.lanes.lane[i].update.isSome = true) ∧
  s.planes.showing.Nodup ∧
  (∀ i ∈ s.planes.showing, s.lanes.lane[i].busy = true ∧ s.lanes.lane[i].update.map (·.source) = some .flip) ∧
  (∀ got, s.lanes.rx = some got → got.length ≤ 2)

/-- R193: every parameter lies in its range. -/
def Params.Safe (p : Params) : Prop :=
  p.stretch ≤ 64 ∧ p.shrink ≤ 12 ∧ (1 ≤ p.coalescing ∧ p.coalescing ≤ 50) ∧ p.shadeFloor ≤ 8 ∧
  (1 ≤ p.threshold ∧ p.threshold ≤ 15) ∧ p.priorityFlip ≤ 3 ∧ p.priorityPaint ≤ 3 ∧ p.priorityRequest ≤ 3 ∧
  p.prioritySettle ≤ 3 ∧ p.priorityCleanup ≤ 3 ∧ p.floor ≤ 3 ∧ (1 ≤ p.fullEvery ∧ p.fullEvery ≤ 32) ∧
  (50 ≤ p.settle ∧ p.settle ≤ 2000) ∧ p.sweep ≤ 3600 ∧ (16 ≤ p.residueLimit ∧ p.residueLimit ≤ 255) ∧
  (7 ≤ p.limitFull ∧ p.limitFull ≤ 500) ∧ (7 ≤ p.limitGrey ∧ p.limitGrey ≤ 500) ∧ (7 ≤ p.limitFast ∧ p.limitFast ≤ 500)

/-- R132, R151, R154, R163, R193: residues, the chain count, the held tiles, the flip counter, the priorities of pending requests and the parameters lie in
their ranges. -/
def PlannerSafe (s : State) : Prop :=
  s.params.Safe ∧ (∀ t ∈ s.planner.tiles.toList, t.residue ≤ 255) ∧ s.notes.chain < 8 ∧
  s.notes.tiles.Pairwise (· < ·) ∧ (∀ k ∈ s.notes.tiles, k < 1200) ∧ s.planner.flipCounter ≤ 32 ∧
  (∀ r ∈ s.planner.queue, r.priority ≤ 3) ∧ ∀ h, s.cmd.executing = some h → ∀ k ∈ h.tiles, k < 1200

/-! ### Chapter 11 -/

/-- R186: a slot holds a detail exactly while its flag is set. -/
def EventSafe (s : State) : Prop :=
  (s.events.face.isSome = s.events.has .faceFault) ∧ (s.events.glyph.isSome = s.events.has .glyphMissing) ∧
  (s.events.table.isSome = s.events.has .tableFault) ∧ (s.events.note.isSome = s.events.has .noteFault) ∧
  (s.events.command.isSome = s.events.has .commandRefused)

end Sys2Proof.Machine
end

