-- ==== Sys2Proof/Certificates/Slice0/Obligations.lean ====
section
/-! DEFINITION. The statements for the provers, chapter by chapter. A hypothesis `Takes`, `TakesInPage` or `Commands` (Safety.lean) says which record or command stands
at hand; what follows is an equation `exec … = .next t`, which says at once what the step writes and that everything else stays. -/

open Sys2Proof Sys2Proof.Machine

/-! ### The queue of the model, and power-on -/

/-- The front command of the queue runs, on the state with the queue's rest. The queue is the model's own (log 1). -/
def Obligations.StepRunsFrontCommand : Prop :=
  ∀ (c : Instr) (rest : List Instr) (s : State), s.pending = c :: rest → step s = exec c { s with pending := rest }

/-- Every step that can occur is answered by a next state, whatever the state, and leaves the model's queue alone; a select edge with more than seven bits
unfinished and a timeout of a lane above 3 are the model's only faults (log 3). -/
def Obligations.WellFormedCommandsAnswer : Prop :=
  ∀ (c : Instr) (s : State),
    (c.wellFormed = true → ∃ t, exec c s = .next t ∧ t.pending = s.pending) ∧
    (c.wellFormed = false → exec c s = .fault .illFormed)

/-- The power-on values of R16, R34, R36, R58, R115, R125, R136, R150, R171, R183, R184 and R193. That the select pin keeps its level is R1's; that the planes keep their
pixels, which are of no account, is the model's choice (log 2), and so is that PNL_TX's record starts empty (log 9). -/
def Obligations.PowerOnResetsEveryBlock : Prop :=
  ∀ s : State, exec .powerOnReset s = .next
    { pending := s.pending
      link := { select := if s.link.select = .high then .high else .ignored, framing := .between, outbound := [], clocked := 0,
                carried := 0, replaced := false, reply := [] }
      ring := []
      cmd := { queued := [], executing := none, streamHold := 0 }
      faces := { entries := Vector.replicate 32 none, current := 0, shift := 0, stack := [], stackError := false, underflow := false }
      glyphs := Vector.replicate 16 { state := .empty, budget := 0, fill := 0, glyphs := [], kern := List.replicate 256 0 }
      comp := { state := .idle, index := 0, buffer := [], nextOrdinal := 0, para := none, carry := [], applied := false }
      planes := { a := { held := none, pixels := s.planes.a.pixels }, b := { held := none, pixels := s.planes.b.pixels },
                  showPending := false, showing := [] }
      notes := { openIds := [], tiles := [], chain := 0, coalesce := none }
      planner := { tiles := Vector.replicate 1200 { residue := 255, coarse := false }, queue := [], flipCounter := 0, fullNext := true,
                   settle := none, sweep := some { due := 600000, passed := false } }
      lanes := { lane := Vector.replicate 4 { state := .idle, seq := 0, update := none, elapsed := 0 }, lastFull := 0, lastGrey := 0,
                 lastFast := 0, order := [], tx := none, rx := none, sent := [] }
      tick := 0
      events := { flags := 0, face := none, glyph := none, table := none, note := none, command := none }
      params := { stretch := 24, shrink := 4, coalescing := 4, shadeFloor := 4, threshold := 8, priorityFlip := 2, priorityPaint := 3,
                  priorityRequest := 1, prioritySettle := 1, priorityCleanup := 0, floor := 0, fullEvery := 6, settle := 300,
                  sweep := 600, continuous := true, residueLimit := 48, limitFull := 125, limitGrey := 75, limitFast := 37,
                  edgeMask := 0xFFFF, levelMask := 0xF } }

/-! ### Chapter 1: the Page Stream Link -/

/-- R1, R6, R13, R14 and R15: a transfer opens in BETWEEN with the digest and the pending reply fixed as its outbound bytes, and where the digest's sixteen bytes come from; PSL_DO carries
those bytes one after another and 0x00 beyond them, 0x00 while the selection is ignored, and nothing (high impedance) without a selection; select rising
discards an incomplete record with FRAMING_ERROR, gives its reservation or slot back, and clears the reply the transfer carried if it went out whole and no QUERY has
replaced it. A selection that was no transfer only ends. That an edge without a transfer changes nothing is the model's reading (log 4). -/
def Obligations.TransfersCarryDigestAndReply : Prop :=
  (∀ s : State,
    (s.link.select = .high → exec .transferBegin s = .next { s with link :=
      { select := .transfer, framing := .between, outbound := digest s ++ s.link.reply, clocked := 0, carried := s.link.reply.length,
        replaced := false, reply := s.link.reply } }) ∧
    digest s =
      [BitVec.ofNat 8 (freeBytes s), BitVec.ofNat 8 (freeBytes s / 256), BitVec.ofNat 8 (freeSlots s),
       BitVec.ofNat 8 (s.comp.state.code + (if 0 < s.cmd.streamHold then 128 else 0)),
       BitVec.ofNat 8 (s.planes.a.code + 16 * s.planes.b.code),
       BitVec.ofNat 8 s.events.flags.toNat, BitVec.ofNat 8 (s.events.flags.toNat / 256),
       BitVec.ofNat 8 (levelFlags s).toNat,
       BitVec.ofNat 8 (s.lanes.lane[0].state.code + 4 * s.lanes.lane[1].state.code + 16 * s.lanes.lane[2].state.code +
         64 * s.lanes.lane[3].state.code),
       BitVec.ofNat 8 s.planner.queue.length, BitVec.ofNat 8 s.tick.toNat, BitVec.ofNat 8 (s.tick.toNat / 256),
       BitVec.ofNat 8 (frontNumber s), BitVec.ofNat 8 (frontNumber s / 256),
       BitVec.ofNat 8 s.link.reply.length, BitVec.ofNat 8 (s.link.reply.length / 256)] ∧
    (s.link.select = .high → pslDo s = none) ∧
    (s.link.select = .ignored → pslDo s = some 0) ∧
    (s.link.select = .transfer →
      (∀ b, s.link.outbound[s.link.clocked]? = some b → pslDo s = some b) ∧
      (s.link.outbound.length ≤ s.link.clocked → pslDo s = some 0))) ∧
  (∀ s : State,
    freeBytes s = 32768 - ((s.ring.map (·.length)).sum + (match s.link.framing with | .bodyStream _ _ len _ => len | _ => 0)) ∧
    freeSlots s = 4 - (s.cmd.queued.length + (if s.cmd.executing = none then 0 else 1)
      + (match s.link.framing with | .bodyCommand _ _ _ _ => 1 | _ => 0)) ∧
    (s.planes.find .shown = none → frontNumber s = 0) ∧
    (∀ i h, s.planes.find .shown = some i → (s.planes.get i).held = some h → frontNumber s = h.page.number.toNat % 65536) ∧
    s.comp.state.code = (match s.comp.state with | .idle => 0 | .composing => 1 | .waitPlane _ => 2) ∧
    (∀ i, (s.planes.get i).code =
      (match (s.planes.get i).part with | none => 0 | some .composing => 1 | some .ready => 2 | some .shown => 3 | some .retiring => 4)) ∧
    ∀ i : Fin 4, s.lanes.lane[i].state.code =
      (match s.lanes.lane[i].state with | .idle => 0 | .sending => 1 | .waiting => 2 | .faulted => 3)) ∧
  ∀ (s : State) (n : Nat), n < 8 →
    (s.link.select = .transfer →
      exec (.transferEnd n) s = .next { s with
        link := { select := .high, framing := .between, outbound := [], clocked := 0, carried := 0, replaced := false,
                  reply := if 0 < s.link.carried ∧ s.link.replaced = false ∧ 16 + s.link.carried ≤ s.link.clocked then []
                           else s.link.reply }
        events := if s.link.framing.incomplete then s.events.mark .framingError else s.events }) ∧
    (s.link.select = .ignored → exec (.transferEnd n) s = .next { s with link := { s.link with select := .high } }) ∧
    (s.link.select = .high → exec (.transferEnd n) s = .next s)

/-- R3, with R4 and R8: the fourth header byte judges the header. -/
def Obligations.HeaderIsJudgedInOrder : Prop :=
  ∀ (s : State) (kind tag lo hi : Byte),
    s.link.select = .transfer → s.link.framing = .header [kind, tag, lo] →
    let len := lo.toNat + 256 * hi.toNat
    let go (f : Framing) : State := { s with link := { s.link with clocked := s.link.clocked + 1, framing := f } }
    let refuse (why : CommandReason) : State :=
      { go (if len = 4 then .between else .skipCommand (len - 4)) with
        events := { s.events.mark .commandRefused with command := putDetail s.events.command why kind tag kind.toNat 0 } }
    exec (.recordHeader hi) s = .next (
      if len < 4 ∨ 2048 < len ∨ 0x60 ≤ kind.toNat then withEvent (go .skipRest) .framingError
      else if 0x40 ≤ kind.toNat then
        if commandLength kind = none then refuse .unknownKind
        else if commandLength kind ≠ some len then refuse .badLength
        else if freeSlots s = 0 then refuse .queueFull
        else if len ≠ 4 then go (.bodyCommand kind tag len [])
        else if kind = 0x47 then
          { go .between with ring := []
                             cmd := { s.cmd with streamHold := s.cmd.streamHold + 1, queued := s.cmd.queued ++ [⟨kind, tag, []⟩] } }
        else { go .between with cmd := { s.cmd with queued := s.cmd.queued ++ [⟨kind, tag, []⟩] } }
      else if freeBytes s < len then withEvent (go .skipRest) .intakeOverrun
      else if len = 4 then { go .between with ring := s.ring ++ [⟨kind, tag, []⟩] }
      else go (.bodyStream kind tag len []))

/-- R1, R2, R5 and R8: what a byte on PSL_DI does in each framing state. A byte that completes a header, a record or a command does what that
event does; the last byte of an admitted record makes it the newest of the ring, and that of an admitted command the newest of the queue. (STREAM_RESET is whole at its
header: HeaderIsJudgedInOrder.) That the byte and the event it completes are one step is the model's reading (log 6). -/
def Obligations.InboundByteIsFramed : Prop :=
  (∀ (s : State) (b : Byte),
    let go (f : Framing) : Host.Outcome State Fault Refusal :=
      .next { s with link := { s.link with clocked := s.link.clocked + 1, framing := f } }
    (s.link.select ≠ .transfer → exec (.inboundByte b) s = .next s) ∧
    (s.link.select = .transfer →
      (s.link.framing = .between → exec (.inboundByte b) s = go (if b = 0 then .between else .header [b])) ∧
      (∀ got, s.link.framing = .header got → got.length ≠ 3 → exec (.inboundByte b) s = go (.header (got ++ [b]))) ∧
      (∀ got, s.link.framing = .header got → got.length = 3 → exec (.inboundByte b) s = exec (.recordHeader b) s) ∧
      (∀ k t len got, s.link.framing = .bodyStream k t len got →
        exec (.inboundByte b) s = if got.length + 5 < len then go (.bodyStream k t len (got ++ [b])) else exec (.streamRecordEntry b) s) ∧
      (∀ k t len got, s.link.framing = .bodyCommand k t len got →
        exec (.inboundByte b) s = if got.length + 5 < len then go (.bodyCommand k t len (got ++ [b])) else exec (.commandWhole b) s) ∧
      (∀ left, s.link.framing = .skipCommand left →
        exec (.inboundByte b) s = go (if left ≤ 1 then .between else .skipCommand (left - 1))) ∧
      (s.link.framing = .skipRest → exec (.inboundByte b) s = go .skipRest))) ∧
  ∀ (s : State) (kind tag b : Byte) (got : List Byte), s.link.select = .transfer →
    (s.link.framing = .bodyStream kind tag (got.length + 5) got →
      exec (.streamRecordEntry b) s = .next { s with
        link := { s.link with clocked := s.link.clocked + 1, framing := .between }
        ring := s.ring ++ [⟨kind, tag, got ++ [b]⟩] }) ∧
    (s.link.framing = .bodyCommand kind tag (got.length + 5) got → kind ≠ 0x47 →
      exec (.commandWhole b) s = .next { s with
        link := { s.link with clocked := s.link.clocked + 1, framing := .between }
        cmd := { s.cmd with queued := s.cmd.queued ++ [⟨kind, tag, got ++ [b]⟩] } })

/-! ### The Composer's taking of records (4.1, 4.2) -/

/-- R11, R53 and R54: in WAIT_PLANE and under a stream hold no step of the Composer changes anything; a record that does not suit its kind, or a content record in IDLE,
is discarded with its event, and nothing else changes. That a step
whose occasion is absent answers the state as it is, is the model's reading (log 4). -/
def Obligations.ComposerHoldsAndDiscards : Prop :=
  ∀ s : State,
    (s.cmd.streamHold ≠ 0 ∨ s.comp.state.waiting = true → ∀ c ∈ composerSteps, exec c s = .next s) ∧
    ∀ (r : Record) (rest : List Record), Takes s r rest →
      let discard (e : EdgeEvent) : Host.Outcome State Fault Refusal := .next (withEvent { s with ring := rest } e)
      (r.kind ∉ streamKinds → exec .unassignedRecord s = discard .recordError) ∧
      ∀ c k lengthOk content, (c, k, lengthOk, content) ∈ composerRecords → r.kind = k →
        (lengthOk r.length = false → exec c s = discard .recordError) ∧
        (lengthOk r.length = true → content = true → s.comp.state = .idle → exec c s = discard .sequenceError)

/-! ### Chapter 2: faces and the style stack -/

/-- R17 to R20 and R22: a use count is the sum of four terms; the checks of a FACE_LOAD in order, the detail of a refusal, and what an accepted one writes. -/
def Obligations.FaceLoadIsCheckedInOrder : Prop :=
  (∀ (s : State) (h : Nat), useCount s 0 = 0 ∧
    (h ≠ 0 → useCount s h = (if s.faces.current = h then 1 else 0) + (s.faces.stack.map Prod.fst).count h
      + (if h ∈ s.planes.a.faceSet then 1 else 0) + (if h ∈ s.planes.b.faceSet then 1 else 0)) ∧
    (s.faces.stack.length ≤ 8 → useCount s h ≤ 11)) ∧
  ∀ (s : State) (r : Record) (rest : List Record), Takes s r rest → r.kind = 0x10 → r.body.length = 15 →
    let h := r.u8 4
    let f : Face := { table := r.u8 5, firstCode := r.u16 6, lastCode := r.u16 8, replacement := r.u16 10, hyphen := r.u16 12,
                      space := r.u16 14, ascent := r.u8 16, descent := r.u8 17, gap := r.u8 18 }
    let done : State := { s with ring := rest }
    exec .faceLoad s = .next (
      if h = 0 ∨ 31 < h then done.faceFault .range r h 0
      else if (s.faces.face h).isSome = true ∧ 0 < useCount s h then done.faceFault .inUse r h 0
      else match s.glyphs[f.table]? with
        | none => done.faceFault .tableNotReady r h 0
        | some t =>
          if t.state ≠ .ready then done.faceFault .tableNotReady r h 0
          else if f.lastCode < f.firstCode ∨ f.space = 0 ∨ 16383 < f.space ∨ (t.find f.replacement).isNone = true ∨
              (t.find f.hyphen).isNone = true then done.faceFault .badEntry r h 0
          else { done with faces := { s.faces with entries := s.faces.entries.setIfInBounds h (some f) } })

/-- R21: the outcomes of a FACE_UNLOAD. -/
def Obligations.FaceUnloadOutcomes : Prop :=
  ∀ (s : State) (r : Record) (rest : List Record), Takes s r rest → r.kind = 0x11 → r.body.length = 1 →
    let h := r.u8 4
    let done : State := { s with ring := rest }
    exec .faceUnload s = .next (
      if h = 0 ∨ 31 < h then done.faceFault .range r h 0
      else if (s.faces.face h).isSome = true ∧ 0 < useCount s h then done.faceFault .inUse r h 0
      else { done with faces := { s.faces with entries := s.faces.entries.setIfInBounds h none } })

/-- R25: the outcomes of a FACE_SELECT. -/
def Obligations.FaceSelectOutcomes : Prop :=
  ∀ (s : State) (r : Record) (rest : List Record), TakesInPage s r rest → r.kind = 0x06 → r.body.length = 1 →
    let h := r.u8 4
    let done : State := { s with ring := rest }
    exec .faceSelect s = .next (
      if h = 0 then { done with faces := { s.faces with current := 0 } }
      else if 31 < h then done.faceFault .range r h 0
      else if (s.faces.face h).isSome = true then { done with faces := { s.faces with current := h } }
      else done.faceFault .absent r h 0)

/-- R28, R29 and R31: a push keeps the current face and shift, a pop restores what was pushed last, a full or empty stack raises STYLE_STACK_ERROR and sets the sticky
flags instead; a shift is clamped to -64..+64, with PARAM_CLAMPED where the clamp moved it. -/
def Obligations.StyleStackAndShift : Prop :=
  ∀ (s : State) (r : Record) (rest : List Record), TakesInPage s r rest →
    let done : State := { s with ring := rest }
    let z := ((r.byte 5 ++ r.byte 4 : BitVec 16)).toInt
    let shifted (shift : Int) : State := { done with faces := { s.faces with shift := shift } }
    (r.kind = 0x07 → r.body.length = 0 → exec .stylePush s = .next (
      if s.faces.stack.length < 8 then
        { done with faces := { s.faces with stack := (s.faces.current, s.faces.shift) :: s.faces.stack } }
      else withEvent { done with faces := { s.faces with stackError := true } } .styleStackError)) ∧
    (r.kind = 0x08 → r.body.length = 0 → exec .stylePop s = .next (
      match s.faces.stack with
      | top :: below => { done with faces := { s.faces with current := top.1, shift := top.2, stack := below } }
      | [] => withEvent { done with faces := { s.faces with stackError := true, underflow := true } } .styleStackError)) ∧
    (r.kind = 0x09 → r.body.length = 2 → exec .baselineShift s = .next (
      if z < -64 then withEvent (shifted (-64)) .paramClamped
      else if 64 < z then withEvent (shifted 64) .paramClamped
      else shifted z))

/-! ### Chapter 3: glyph tables -/

/-- R38 and R39: the checks of a TABLE_BEGIN in order; an accepted one makes the table LOADING with its budget and its 256 kern values, each clamped to -512..+511, and raises
PARAM_CLAMPED once if a clamp moved one. -/
def Obligations.TableBeginIsCheckedInOrder : Prop :=
  ∀ (s : State) (r : Record) (rest : List Record), Takes s r rest → r.kind = 0x12 → r.body.length = 517 →
    let id := r.u8 4
    let budget := r.u32 5
    let sent (k : Nat) : Int := ((r.byte (10 + 2 * k) ++ r.byte (9 + 2 * k) : BitVec 16)).toInt
    let done : State := { s with ring := rest }
    exec .tableBegin s = .next (
      match s.glyphs[id]? with
      | none => done.tableFault .range r id 0
      | some t =>
        if t.state ≠ .empty then done.tableFault .notEmpty r id 0
        else if 786432 < (s.glyphs.toList.map (·.budget)).sum + budget then done.tableFault .noRoom r id 0
        else
          let table : GlyphTable := { state := .loading, budget := budget, fill := 0, glyphs := [],
                                      kern := (List.range 256).map fun k => max (-512) (min 511 (sent k)) }
          let begun : State := { done with glyphs := s.glyphs.setIfInBounds id table }
          if ((List.range 256).all fun k => decide (-512 ≤ sent k ∧ sent k ≤ 511)) = true then begun else withEvent begun .paramClamped)

/-- R40, R41 and R43: the checks of a GLYPH_DEFINE in order; a content check that fails makes the table FAULTY and changes nothing else of it; an accepted record adds its
glyph at the high end and its cost to the fill. The bitmap check is that of GlyphBitmapsDecode. -/
def Obligations.GlyphDefineIsCheckedInOrder : Prop :=
  ∀ (s : State) (r : Record) (rest : List Record), Takes s r rest → r.kind = 0x13 → 10 ≤ r.body.length →
    let id := r.u8 4
    let done : State := { s with ring := rest }
    exec .glyphDefine s = .next (
      match s.glyphs[id]? with
      | none => done.tableFault .range r id 0
      | some t =>
        let faulty (why : TableReason) : State :=
          ({ done with glyphs := s.glyphs.setIfInBounds id { t with state := .faulty } } : State).tableFault why r id t.glyphs.length
        if t.state ≠ .loading then done.tableFault .notLoading r id t.glyphs.length
        else if 16383 < r.u16 7 ∨ 224 < r.u8 11 ∨ 224 < r.u8 12 ∨ 15 < r.u8 13 then faulty .field
        else if (t.glyphs.getLast?.any fun g => decide (r.u16 5 ≤ g.code)) = true then faulty .order
        else if 4096 ≤ t.glyphs.length then faulty .count
        else if t.budget < t.fill + (r.body.length + 2) then faulty .overfill
        else match decodeBitmap (r.u8 11) (r.u8 12) (r.body.drop 10) with
          | none => faulty .bitmap
          | some coverage =>
            let g : Glyph := { code := r.u16 5, advance := r.u16 7, bearing := (r.byte 9).toInt, top := (r.byte 10).toInt,
                               width := r.u8 11, height := r.u8 12, kernClass := r.u8 13, coverage := coverage }
            let table : GlyphTable := { t with fill := t.fill + (r.body.length + 2), glyphs := t.glyphs ++ [g] }
            { done with glyphs := s.glyphs.setIfInBounds id table })

/-- R42: the bitmaps that decode, and what they decode to: the bytes split into as many rows as the height, the runs of each summing to the width. -/
def Obligations.GlyphBitmapsDecode : Prop :=
  ∀ (width height : Nat) (bytes : List Byte) (coverage : List Level),
    decodeBitmap width height bytes = some coverage ↔
      coverage = bytes.flatMap (fun b => List.replicate (b.toNat / 16 + 1) (Fin.ofNat 16 (b.toNat % 16))) ∧
      if width = 0 ∨ height = 0 then bytes = []
      else ∃ rows : List (List Byte), rows.length = height ∧ rows.flatten = bytes ∧
        ∀ row ∈ rows, (row.map fun b => b.toNat / 16 + 1).sum = width

/-- R44 and R45: the outcomes of TABLE_END and TABLE_DROP by the table's state. -/
def Obligations.TableEndAndDrop : Prop :=
  ∀ (s : State) (r : Record) (rest : List Record), Takes s r rest → r.body.length = 1 →
    let id := r.u8 4
    let done : State := { s with ring := rest }
    let become (t : GlyphTable) : State := { done with glyphs := s.glyphs.setIfInBounds id t }
    (r.kind = 0x14 → exec .tableEnd s = .next (
      match s.glyphs[id]? with
      | none => done.tableFault .range r id 0
      | some t => if t.state = .loading then become { t with state := .ready } else done.tableFault .notLoading r id t.glyphs.length)) ∧
    (r.kind = 0x15 → exec .tableDrop s = .next (
      match s.glyphs[id]? with
      | none => done.tableFault .range r id 0
      | some t =>
        if t.state = .empty then done
        else if t.state = .ready ∧ (s.faces.entries.toList.any fun e => e.any fun f => f.table == id) = true then done.tableFault .inUse r id 0
        else become { state := .empty, budget := 0, fill := 0, glyphs := [], kern := List.replicate 256 0 }))

/-! ### Parameters (11.6) -/

/-- R192 and R193: an entry of a PARAM_SET sets the parameter it names, and no other, to its value clamped to its range; the timeout limits are held in units of 16 ms. An
unknown id sets none. -/
def Obligations.ParamEntrySetsItsParameter : Prop :=
  ∀ (a : ParamPass) (id v : Nat),
    (id = 0 ∨ 21 < id → a.entry id v = { a with unknown := true }) ∧
    ∀ lo hi, (id, lo, hi) ∈ paramTable →
      let w := max lo (min hi v)
      (a.entry id v).params.read id = (if 17 ≤ id ∧ id ≤ 19 then w / 16 else w) ∧
      (∀ j, j ≠ id → (a.entry id v).params.read j = a.params.read j) ∧
      (a.entry id v).unknown = a.unknown ∧
      ((a.entry id v).clamped = true ↔ a.clamped = true ∨ v < lo ∨ hi < v) ∧
      ((a.entry id v).sweep = true ↔ a.sweep = true ∨ id = 14 ∨ id = 15)

/-- R83, R161, R168 and R192: a PARAM_SET taken for the first time sets its values, restarts the sweep timer once if it names a sweep parameter, attempts dispatch if the
priority floor changes, and raises its events once; where the shrink factor changes and the line buffer holds entries, the break test follows, and if that turns into
PAGE_FULL handling the record stays, marked. Taken again, it makes the break test alone. -/
def Obligations.ParamSetIsApplied : Prop :=
  ∀ (s : State) (r : Record) (rest : List Record) (n : Nat),
    Takes s r rest → r.kind = 0x18 → n ≤ 32 → r.body.length = 3 * n →
    let a : ParamPass := (List.range n).foldl (fun a i => ParamPass.entry a (r.u8 (4 + 3 * i)) (r.u16 (5 + 3 * i)))
      { params := s.params, unknown := false, clamped := false, sweep := false }
    let timed : State := { s with
      params := a.params
      planner := if a.sweep = true then
          { s.planner with sweep := if a.params.sweep = 0 then none
                                    else some { due := s.tick + BitVec.ofNat 32 (a.params.sweep * 1000), passed := false } }
        else s.planner }
    let placed := if a.params.floor = s.params.floor then timed else attemptDispatch timed
    let noted := if a.unknown = true then withEvent placed .recordError else placed
    let t := if a.clamped = true then withEvent noted .paramClamped else noted
    let test (u : State) : State := match u.breakTest with
      | .placed v => { v with ring := rest, comp := { v.comp with applied := false } }
      | .full v => { v with comp := { v.comp with applied := true } }
    exec .paramSet s = .next (
      if s.comp.applied = true then test s
      else if a.params.shrink ≠ s.params.shrink ∧ s.comp.buffer ≠ [] then test t
      else { t with ring := rest })

/-! ### Chapters 3 to 5: lines -/

/-- R48 and R49: what an entry takes from its face, and when GLYPH_MISSING is due: a glyph class is looked up by its code if the face's range and table have it, and by the
replacement code otherwise; a space takes the space advance; SOFT_HYPHEN and LINE_BREAK take nothing. -/
def Obligations.LookupFindsTheGlyph : Prop :=
  ∀ (s : State) (f : Face) (t : GlyphTable) (code cls : Nat),
    s.faces.face s.faces.current = some f → s.glyphs[f.table]? = some t →
    let stamped (subst advance : Nat) (kernClass : Option Nat) : Entry :=
      { code := code, subst := subst, cls := cls, face := s.faces.current, shift := s.faces.shift, ordinal := 0,
        advance := advance, kernClass := kernClass, kern := none }
    (cls = 0 ∨ cls = 4 ∨ 6 ≤ cls →
      (∀ g ∈ t.find code, f.firstCode ≤ code → code ≤ f.lastCode →
        s.lookup code cls = (stamped code g.advance (some g.kernClass), none)) ∧
      (∀ g ∈ t.find f.replacement, code < f.firstCode ∨ f.lastCode < code →
        s.lookup code cls = (stamped f.replacement g.advance (some g.kernClass), some .outOfRange)) ∧
      (∀ g ∈ t.find f.replacement, f.firstCode ≤ code → code ≤ f.lastCode → t.find code = none →
        s.lookup code cls = (stamped f.replacement g.advance (some g.kernClass), some .undefined))) ∧
    (cls = 1 ∨ cls = 2 → s.lookup code cls = (stamped code f.space none, none)) ∧
    (cls = 3 ∨ cls = 5 → s.lookup code cls = (stamped code 0 none, none))

/-- R52 and R59, steps 2 to 8: an append opens a default paragraph if none is open, gives the entry the next ordinal and its kern adjustment against the entry appended
before it, and the plane's face set its face; then a LINE_BREAK ends the line as a last line (R67), any other entry brings the break test, and a buffer of 256
entries ends a forced line (R68). -/
def Obligations.AppendJoinsTheBuffer : Prop :=
  ∀ (s : State) (i : PlaneId) (page : Page) (e : Entry), s.composingPage = some (i, page) →
    let n := s.comp.nextOrdinal
    let kern : Option Int := match s.comp.buffer.getLast?, (s.faces.face e.face).bind fun f => s.glyphs[f.table]? with
      | some p, some t =>
        if (p.cls = 0 ∨ p.cls = 4 ∨ 6 ≤ p.cls) ∧ (e.cls = 0 ∨ e.cls = 4 ∨ 6 ≤ e.cls) ∧ p.face = e.face then
          p.kernClass.bind fun l => e.kernClass.map fun r => t.kern.getD (16 * l + r) 0
        else none
      | _, _ => none
    s.join e = { s with
      comp := { s.comp with
        buffer := s.comp.buffer ++ [{ e with ordinal := n, kern := kern }]
        nextOrdinal := n + 1
        para := some (s.comp.para.getD { alignment := .justify, indent := 0, spaceBefore := 0, firstDone := false }) }
      planes := s.planes.setPage i { page with
        glyphCount := n + 1
        faceSet := if e.face = 0 then page.faceSet else insertNat e.face page.faceSet } } ∧
    ∀ cls, s.afterAppend cls =
      (if cls = 5 then s.commit { entries := s.comp.buffer, hyphenated := false, forced := false, overwide := false, last := true, paraLast := false }
       else s.breakTest).andThen fun t =>
        if t.comp.buffer.length < 256 then .placed t
        else t.commit { entries := t.comp.buffer, hyphenated := false, forced := true, overwide := false, last := false, paraLast := false }

/-- R27, R55, R59, R75 and R76: one step of a TEXT_RUN, and one of the re-append of a carry. A run under a null face is dropped; an append that would need ordinal 8192 is
PAGE_FULL handling, the index unchanged; otherwise the entry at the index is appended, the index moves on, and the run ends with its last entry. -/
def Obligations.TextIsAppendedEntryByEntry : Prop :=
  ∀ (s : State) (r : Record) (rest : List Record) (n : Nat),
    let i := s.comp.index
    let at_ (u : State) (k : Nat) : State := { u with comp := { u.comp with index := k } }
    (TakesInPage s r rest → r.kind = 0x05 → r.body.length = 3 * n →
      let found := s.lookup (r.u16 (4 + 3 * i)) (r.u8 (6 + 3 * i))
      let noted : State := match found.2 with
        | none => s
        | some why => s.glyphMissing why r (r.u16 (4 + 3 * i)) s.comp.nextOrdinal
      (s.faces.current = 0 →
        exec .textRunEntry s = .next { at_ (s.faceFault .nullFace r 0 s.comp.nextOrdinal) 0 with ring := rest }) ∧
      (s.faces.current ≠ 0 → n ≤ i → exec .textRunEntry s = .next { at_ s 0 with ring := rest }) ∧
      (s.faces.current ≠ 0 → i < n → 8192 ≤ s.comp.nextOrdinal → exec .textRunEntry s = .next s.pageFull) ∧
      (s.faces.current ≠ 0 → i < n → s.comp.nextOrdinal < 8192 → exec .textRunEntry s = .next (
        match (noted.join found.1).afterAppend (r.u8 (6 + 3 * i)) with
        | .full t => at_ t (i + 1)
        | .placed t => if i + 1 < n then at_ t (i + 1) else { at_ t 0 with ring := rest }))) ∧
    ∀ e carry, s.comp.state = .composing → s.cmd.streamHold = 0 → s.comp.carry = e :: carry →
      exec .carryReappend s = .next (
        if 8192 ≤ s.comp.nextOrdinal then s.pageFull
        else ((State.join { s with comp := { s.comp with carry := carry } } e).afterAppend e.cls).state)

/-- R79 to R82: a line's natural width sums the advances of its entries and the kern adjustments of all but the first; its limit is the least cap of its spaces; and the fit
test. R61, R62 and R63: the break chosen for a pending line is its latest candidate whose line fits; without one, it is the longest prefix whose natural width is within the
measure, or the first entry alone, OVERWIDE, if no prefix is. That the OVERWIDE
break comes before the longest prefix is the model's reading of R63 (log 11). -/
def Obligations.ChosenBreakIsTheLatestThatFits : Prop :=
  (∀ (es : List Entry) (hy k : Nat) (measure : Int),
    let caps := (es.filter fun e => e.cls == 1).map fun e => e.advance * k / 16
    naturalWidth hy es = (es.map fun e => (e.advance : Int)).sum + ((es.drop 1).map fun e => e.kern.getD 0).sum + (hy : Int) ∧
    (caps = [] → spaceLimit k es = 0) ∧ (caps ≠ [] → spaceLimit k es ∈ caps) ∧ (∀ c ∈ caps, spaceLimit k es ≤ c) ∧
    (fits k measure hy es = true ↔ naturalWidth hy es ≤ measure ∨
      (0 < caps.length ∧ naturalWidth hy es - measure ≤ ((caps.length * spaceLimit k es : Nat) : Int))) ∧
    ∃ spaces, es = trimSpaces es ++ spaces ∧ (∀ e ∈ spaces, e.cls = 1) ∧ ∀ e, (trimSpaces es).getLast? = some e → e.cls ≠ 1) ∧
  ∀ (shrink : Nat) (measure : Int) (hyphen : Nat → Nat) (es : List Entry), es ≠ [] →
    let candidate (n : Nat) : Prop := ∃ e, (es.take n).getLast? = some e ∧ (∃ x ∈ es.take n, x.cls ≠ 1 ∧ x.cls ≠ 3) ∧
      ((e.cls = 1 ∧ fits shrink measure 0 (trimSpaces (es.take n)) = true) ∨
       (e.cls = 3 ∧ fits shrink measure (hyphen e.face) (es.take n) = true) ∨
       (e.cls = 4 ∧ fits shrink measure 0 (es.take n) = true))
    let narrow (n : Nat) : Prop := naturalWidth 0 (trimSpaces (es.take n)) ≤ measure
    let b := chooseBreak shrink measure hyphen es
    1 ≤ b.len ∧ b.len ≤ es.length ∧
    ((∃ n ≤ es.length, candidate n) →
      b.forced = false ∧ b.overwide = false ∧ candidate b.len ∧ (∀ n ≤ es.length, candidate n → n ≤ b.len) ∧
      (b.hyphenated = true ↔ ∃ e, (es.take b.len).getLast? = some e ∧ e.cls = 3)) ∧
    ((¬ ∃ n ≤ es.length, candidate n) →
      b.forced = true ∧ b.hyphenated = false ∧ (b.overwide = true ↔ ¬ narrow 1) ∧
      (narrow 1 → narrow b.len ∧ ∀ n ≤ es.length, narrow n → n ≤ b.len) ∧ (¬ narrow 1 → b.len = 1))

/-- R50, R60 and R78: the break test, on the line buffer without its trailing spaces, against the measure less the indent of a first line. While the pending line does not fit, the line
that ends at the chosen break, with the spaces that follow it, is committed, and the test is made again on the remainder. Where no commit turns into PAGE_FULL handling, the
pending line left fits. -/
def Obligations.BreakTestRepeatsUntilTheLineFits : Prop :=
  ∀ (s : State) (i : PlaneId) (page : Page), s.composingPage = some (i, page) → s.comp.indent ≤ page.frame.width →
    let indent : Nat := match s.comp.para with | some p => if p.firstDone then 0 else p.indent | none => 0
    let measure : Int := (((1680 - page.frame.left - page.frame.right : Nat) : Int) - indent) * 64
    let b := chooseBreak s.params.shrink measure s.hyphenAdvance (trimSpaces s.comp.buffer)
    let hung := ((s.comp.buffer.drop b.len).takeWhile fun e => e.cls == 1).length
    s.measure = measure ∧ s.comp.indent = indent ∧
    (∀ h f t g, s.faces.face h = some f → s.glyphs[f.table]? = some t → t.find f.hyphen = some g → s.hyphenAdvance h = g.advance) ∧
    s.breakTest = (if fits s.params.shrink measure 0 (trimSpaces s.comp.buffer) = true then .placed s
      else (s.commit { entries := s.comp.buffer.take (b.len + hung), hyphenated := b.hyphenated, forced := b.forced,
                       overwide := b.overwide, last := false, paraLast := false }).andThen State.breakTest) ∧
    ∀ t, s.breakTest = .placed t → fits t.params.shrink t.measure 0 (trimSpaces t.comp.buffer) = true

/-- R84 to R88: the case of a line by its slack, its adjustable spaces and their stretch limit. A line that shrinks or is justified fills its measure: its spaces' shares sum
to the slack, the lowest-numbered take the larger ones, and none is above the limit. -/
def Obligations.SharesSumToTheSlack : Prop :=
  ∀ (overwide last : Bool) (a : Machine.Alignment) (slack : Int) (n ms mk : Nat),
    let p := spreadOf overwide last a slack n ms
    let total := ((List.range n).map p.share).sum
    (overwide = true → total = 0 ∧ p.offset = 0 ∧ p.justified = false ∧ p.loose = false) ∧
    (overwide = false → slack < 0 → 0 < n → -slack ≤ ((n * mk : Nat) : Int) →
      total = slack ∧ p.offset = 0 ∧ p.justified = true ∧ p.loose = false ∧
      ∀ i < n, -(mk : Int) ≤ p.share i ∧ p.share i ≤ 0 ∧ p.share i ≤ p.share (i + 1)) ∧
    (overwide = false → 0 ≤ slack → a = .justify → last = false → 0 < n → slack ≤ ((n * ms : Nat) : Int) →
      total = slack ∧ p.offset = 0 ∧ p.justified = true ∧ p.loose = false ∧
      ∀ i < n, 0 ≤ p.share i ∧ p.share i ≤ (ms : Int) ∧ p.share (i + 1) ≤ p.share i) ∧
    (overwide = false → 0 ≤ slack → a = .justify → last = false → 0 < n → ((n * ms : Nat) : Int) < slack →
      (∀ i < n, p.share i = (ms : Int)) ∧ p.offset = 0 ∧ p.justified = false ∧ p.loose = true) ∧
    (overwide = false → 0 ≤ slack → (a ≠ .justify ∨ last = true ∨ n = 0) →
      total = 0 ∧ p.justified = false ∧ p.loose = false ∧
      p.offset = (match a with | .left => 0 | .justify => 0 | .right => slack | .center => slack / 2))

/-- R64 and R67: which entries of a line hang: the spaces at its end, or directly before the LINE_BREAK that ends it. R90 and R91: an entry's position is the line's offset plus the
spans of the entries before it plus its own counted kern adjustment; a hanging space stands at the line end, and so does the LINE_BREAK after it, which keeps no adjustment
(R52). Each position becomes a pixel column on its own, rounded half up. -/
def Obligations.PositionsSumTheSpans : Prop :=
  (∀ (α : Type) (cls : α → Nat) (core hanging : List α), (∀ x ∈ hanging, cls x = 1) → (∀ x, core.getLast? = some x → cls x ≠ 1) →
    ((hanging = [] → ∀ x, core.getLast? = some x → cls x ≠ 5) →
      markHanging cls (core ++ hanging) = core.map (·, false) ++ hanging.map (·, true)) ∧
    ∀ x, cls x = 5 → markHanging cls (core ++ hanging ++ [x]) = core.map (·, false) ++ hanging.map (·, true) ++ [(x, false)]) ∧
  ∀ (p : Spread) (hy : Nat) (x0 : Int) (core hanging : List Entry),
    let kern (j : Nat) (e : Entry) : Int := if j = 0 then 0 else e.kern.getD 0
    let spaces (j : Nat) : Nat := ((core.take j).filter Entry.isSpace).length
    let span (hy j : Nat) (e : Entry) : Int := kern j e + e.advance + (if e.isSpace then p.share (spaces j) else 0)
      + (if j + 1 = core.length then (hy : Int) else 0)
    let before (hy j : Nat) : Int := x0 + (((core.take j).zipIdx).map fun q => span hy q.2 q.1).sum
    let xs := positions p hy true 0 x0 (core.map (·, false) ++ hanging.map (·, true))
    (∀ j e, core[j]? = some e → xs[j]? = some (before hy j + kern j e)) ∧
    (∀ j, j < hanging.length → xs[core.length + j]? = some (before hy core.length)) ∧
    (∀ x, x.cls = 5 → x.kern = none →
      let ys := positions p 0 true 0 x0 (core.map (·, false) ++ hanging.map (·, true) ++ [(x, false)])
      (∀ j e, core[j]? = some e → ys[j]? = some (before 0 j + kern j e)) ∧
      ∀ j, j ≤ hanging.length → ys[core.length + j]? = some (before 0 core.length)) ∧
    ∀ left indent x, 64 * (pixelX left indent x - left - indent) ≤ x + 32 ∧ x + 32 < 64 * (pixelX left indent x - left - indent) + 64

/-- R73 (steps 1 and 5) and R84: how a line is laid out. Its slack, spaces and stretch limit are those of its entries that do not hang, with the hyphen's advance if it ends
at a taken SOFT_HYPHEN; each entry is placed at its column, drawn if it is of a glyph class or the taken SOFT_HYPHEN, which stands as its face's hyphen. -/
def Obligations.LineIsLaidOut : Prop :=
  ∀ (s : State) (page : Page) (l : EndingLine),
    let hy := if l.hyphenated = true then ((l.core.getLast?).map fun e => s.hyphenAdvance e.face).getD 0 else 0
    let alignment := match s.comp.para with | some p => p.alignment | none => .justify
    let spread := spreadOf l.overwide l.last alignment (s.measure - naturalWidth hy l.core) (l.core.filter Entry.isSpace).length
      (spaceLimit s.params.stretch l.core)
    let marked := markHanging (·.cls) l.entries
    let xs := positions spread hy true 0 spread.offset marked
    let out := layOut s page l
    marked.map (·.1) = l.entries ∧ l.core = (marked.filter fun q => !q.2).map (·.1) ∧
    out.line.offset = spread.offset ∧ out.line.flags.justified = spread.justified ∧ out.line.flags.loose = spread.loose ∧
    out.placements.length = l.entries.length ∧
    ∀ j e hangs x, marked[j]? = some (e, hangs) → xs[j]? = some x →
      let taken : Bool := l.hyphenated && !hangs && (marked.drop (j + 1)).all (·.2)
      out.placements[j]? = some
        { ordinal := e.ordinal, face := e.face, cls := e.cls, shift := e.shift, x := pixelX page.frame.left s.comp.indent x
          code := if taken = true then ((s.faces.face e.face).map (·.hyphen)).getD 0 else e.subst
          drawn := taken || decide (e.cls = 0 ∨ e.cls = 4 ∨ 6 ≤ e.cls) }

/-- R73, R74 and R92 to R94: a commit works out the line's box from the faces of its entries that do not hang, its baseline from the line before it or the top margin, and
then either turns into PAGE_FULL handling or places the line: its record and placements join the page, its entries leave the buffer, the paragraph's first line is done,
and the line is drawn. -/
def Obligations.CommitPlacesTheLine : Prop :=
  ∀ (s : State) (i : PlaneId) (page : Page) (l : EndingLine), s.composingPage = some (i, page) →
    let first : Bool := match s.comp.para with | some p => !p.firstDone | none => false
    let faces := if l.core = [] then [s.faces.face s.faces.current] else l.core.map fun e => s.faces.face e.face
    let most (g : Face → Nat) : Nat := (faces.map fun f => (f.map g).getD 0).foldl max 0
    let space : Nat := match s.comp.para with | some p => if p.firstDone then 0 else p.spaceBefore | none => 0
    let baseline := (match page.lines.getLast? with
      | none => page.frame.top
      | some q => q.baseline + q.descent + q.gap + space) + most (·.ascent)
    let out := layOut s page l
    let line : Line := { out.line with
      count := l.entries.length, baseline := baseline, ascent := most (·.ascent), descent := most (·.descent), gap := most (·.gap)
      flags := { out.line.flags with
        forced := l.forced, overwide := l.overwide, hyphenated := l.hyphenated, paraFirst := first, paraLast := l.paraLast
        overtall := decide (2240 - page.frame.bottom < baseline + most (·.descent)) } }
    let page' : Page := { page with lines := page.lines ++ [line], placements := page.placements ++ out.placements }
    s.commit l =
      if 160 ≤ page.lines.length ∨ (page.lines ≠ [] ∧ 2240 - page.frame.bottom < baseline + most (·.descent)) then .full s.pageFull
      else .placed { s with
        comp := { s.comp with buffer := s.comp.buffer.drop l.entries.length
                              para := s.comp.para.map fun p => { p with firstDone := true } }
        planes := (s.planes.setPage i page').setPixels i (drawLine s page' (s.planes.get i).pixels line) }

/-- R74, R104 and R124: PAGE_FULL handling. The buffer, with what is left of an earlier carry, is carried from ordinal `c` on; the page closes READY and OVERFLOWED with
`c` ordinals and the faces of its committed lines; each note is kept, split at `c` or moved; the continuation is pending with the notes moved, in their order. That the next ordinal
is 0 meanwhile is the model's reading (log 12). -/
def Obligations.PageFullCarriesTheBuffer : Prop :=
  ∀ (s : State) (i : PlaneId) (page : Page), s.composingPage = some (i, page) →
    let c := match s.comp.buffer with | [] => page.glyphCount | e :: _ => e.ordinal
    let keep (n : Note) : Option Note :=
      if c ≤ n.start then none
      else match n.stop with
        | none => some { n with stop := some (c - 1), closedByPage := true }
        | some e => if e < c then some n else some { n with stop := some (c - 1), closedByPage := true }
    let move (n : Note) : Option Note :=
      if c ≤ n.start then some { n with start := n.start - c, stop := n.stop.map (· - c) }
      else match n.stop with
        | none => some { n with start := 0, continued := true, closedByPage := false }
        | some e => if e < c then none else some { n with start := 0, stop := some (e - c), continued := true }
    ∃ moved faces, moved.Perm (page.notes.filterMap move) ∧ moved.Pairwise (fun m n => m.before n = true) ∧
      (∀ h, h ∈ faces ↔ ∃ p ∈ page.placements, p.face = h) ∧
      s.pageFull = withEvent (withEvent { s with
        planes := s.planes.set i { s.planes.get i with held := some { part := .ready, page := { page with
          glyphCount := c, overflowed := true, faceSet := faces, notes := page.notes.filterMap keep } } }
        comp := { s.comp with
          state := .waitPlane (.continuation (page.number + 1) page.frame moved), buffer := [], nextOrdinal := 0
          para := s.comp.para.map fun p => { p with firstDone := true }, carry := s.comp.buffer ++ s.comp.carry } }
        .pageReady) .pageFull

/-! ### Chapter 4: paragraphs -/

/-- R70 and R71: a paragraph ends with its last line committed and its record absent; a PARA_START first ends an open paragraph and then opens its own, the indent clamped
to 64 less than the page's width. Where the last line's commit turns into PAGE_FULL handling, the record stays where it is. -/
def Obligations.ParagraphsOpenAndEnd : Prop :=
  ∀ (s : State) (r : Record) (rest : List Record) (i : PlaneId) (page : Page),
    TakesInPage s r rest → s.composingPage = some (i, page) →
    let absent (u : State) : State := { u with comp := { u.comp with para := none } }
    let width := 1680 - page.frame.left - page.frame.right
    let open_ (a : Machine.Alignment) (u : State) : State :=
      let opened : State := { u with ring := rest, comp := { u.comp with
        para := some { alignment := a, indent := min (r.u16 5) (width - 64), spaceBefore := r.u8 7, firstDone := false } } }
      if width - 64 < r.u16 5 then withEvent opened .paramClamped else opened
    s.endParagraph = (if s.comp.buffer = [] then .placed (absent s)
      else match s.commit { entries := s.comp.buffer, hyphenated := false, forced := false, overwide := false, last := true, paraLast := true } with
        | .placed u => .placed (absent u)
        | .full u => .full u) ∧
    (r.kind = 0x04 → r.body.length = 0 → exec .paraEnd s = .next (match s.endParagraph with
      | .placed u => { u with ring := rest }
      | .full u => u)) ∧
    (r.kind = 0x03 → r.body.length = 4 → exec .paraStart s = .next (
      if 4 ≤ r.u8 4 then withEvent { s with ring := rest } .recordError
      else
        let a : Machine.Alignment := if r.u8 4 = 0 then .justify else if r.u8 4 = 1 then .left else if r.u8 4 = 2 then .right else .center
        if s.comp.para = none then open_ a s
        else match s.endParagraph with
          | .placed u => open_ a u
          | .full u => u))

/-! ### Chapter 6: pages and planes -/

/-- R99 to R102: the frame clamp, and a page's opening: on an available plane, cleared to paper, with a fresh record; or as a pending open, its record kept at the ring's head. In
COMPOSING the open page is first closed, with SEQUENCE_ERROR, and PAGE_FULL handling stops the record there. -/
def Obligations.PageOpenOpensOrWaits : Prop :=
  ∀ (s : State) (r : Record) (rest : List Record), Takes s r rest → r.kind = 0x01 → r.body.length = 12 →
    let left := r.u16 8
    let right := r.u16 10
    let top := r.u16 12
    let bottom := r.u16 14
    let frame : Frame :=
      { left := if 1456 < left + right then min left 1456 else left
        right := if 1456 < left + right then 1456 - left else right
        top := if 2016 < top + bottom then min top 2016 else top
        bottom := if 2016 < top + bottom then 2016 - top else bottom
        clamped := decide (1456 < left + right ∨ 2016 < top + bottom) }
    let page : Page := { number := BitVec.ofNat 32 (r.u32 4), frame := frame, glyphCount := 0, overflowed := false, continuation := false,
                         lines := [], placements := [], notes := [], faceSet := [] }
    let start (u : State) : State :=
      let v := if frame.clamped = true then withEvent u .paramClamped else u
      match u.planes.available with
      | some i => { v with
          ring := rest
          planes := u.planes.set i { held := some { part := .composing, page := page }, pixels := [] }
          comp := { u.comp with state := .composing, buffer := [], nextOrdinal := 0, para := none } }
      | none => { v with comp := { u.comp with state := .waitPlane (.opening page.number frame) } }
    (s.comp.state = .idle → exec .pageOpen s = .next (start s)) ∧
    (s.comp.state = .composing → exec .pageOpen s = .next (match s.endParagraph with
      | .full u => u
      | .placed u => start (withEvent u.closePage .sequenceError)))

/-- R77, R103 and R123: a page's close, and the two forms of PAGE_CLOSE. -/
def Obligations.PageCloseClosesThePage : Prop :=
  (∀ (s : State) (i : PlaneId) (page : Page), s.composingPage = some (i, page) →
    let close (n : Note) : Option Note := match n.stop with
      | some _ => some n
      | none => if n.start < page.glyphCount then some { n with stop := some (page.glyphCount - 1), closedByPage := true } else none
    s.closePage = withEvent { s with
      planes := s.planes.set i { s.planes.get i with held := some { part := .ready, page := { page with notes := page.notes.filterMap close } } }
      notes := { s.notes with openIds := [] }
      comp := { s.comp with state := .idle, buffer := [], nextOrdinal := 0, para := none } } .pageReady) ∧
  ∀ (s : State) (r : Record) (rest : List Record), TakesInPage s r rest → r.kind = 0x02 → r.body.length = 1 →
    exec .pageClose s = .next (
      if 1 < r.u8 4 then withEvent { s with ring := rest } .recordError
      else match s.endParagraph with
        | .full u => u
        | .placed u =>
          if r.u8 4 = 0 then { u.closePage with ring := rest }
          else match u.closePage.planes.find .ready with
            | none => { u.closePage with ring := rest }
            | some i => { u.closePage.flip i with ring := (u.closePage.flip i).ring.tail })

/-- R98, R56, R100 and R105: which plane is available, and what its grant to a pending page does. -/
def Obligations.GrantOpensThePendingPage : Prop :=
  ∀ s : State,
    (∀ i, s.planes.available = some i ↔
      (s.planes.get i).part = none ∧ (s.planes.get i.other).part ≠ some .composing ∧ (s.planes.get i.other).part ≠ some .ready ∧
        (i = .b → (s.planes.get .a).part ≠ none)) ∧
    (s.cmd.streamHold ≠ 0 ∨ s.planes.available = none ∨ s.comp.state.waiting = false → s.grant = s) ∧
    (∀ i number frame, s.cmd.streamHold = 0 → s.planes.available = some i → s.comp.state = .waitPlane (.opening number frame) →
      s.grant = { s with
        ring := s.ring.tail
        planes := s.planes.set i { pixels := [], held := some { part := .composing, page :=
          { number := number, frame := frame, glyphCount := 0, overflowed := false, continuation := false, lines := [], placements := [],
            notes := [], faceSet := [] } } }
        comp := { s.comp with state := .composing, buffer := [], nextOrdinal := 0, para := none } }) ∧
    (∀ i number frame notes, s.cmd.streamHold = 0 → s.planes.available = some i →
      s.comp.state = .waitPlane (.continuation number frame notes) →
      s.grant = { s with
        planes := s.planes.set i { pixels := [], held := some { part := .composing, page :=
          { number := number, frame := frame, glyphCount := 0, overflowed := false, continuation := true, lines := [], placements := [],
            notes := notes, faceSet := [] } } }
        comp := { s.comp with state := .composing, nextOrdinal := 0 } })

/-- R106, R131, R136, R162 and R163: a flip. The READY plane becomes SHOWN; the old front becomes RETIRING while a lane sends from it, and FREE otherwise; every pending request and
the hold set go, and the flip request for all tiles is the queue's one member, FULL or GREY; a held paint ends SUPERSEDED; the show report is set up; a pending page may
be granted a plane; and dispatch is attempted last. -/
def Obligations.FlipShowsTheReadyPage : Prop :=
  ∀ (s : State) (i : PlaneId), s.planes.find .ready = some i →
    let front : Planes := match s.planes.find .shown with
      | none => s.planes
      | some old => s.planes.set old { s.planes.get old with
          held := if s.lanes.lane.toList.any (fun x => x.sendsFrom old) = true
            then (s.planes.get old).held.map fun h => { h with part := .retiring } else none }
    let full : Bool := s.planner.fullNext || s.planner.queue.any (fun r => r.source == .flip && r.mode == .full)
      || decide (s.params.fullEvery ≤ s.planner.flipCounter)
    let request : Request := { source := .flip, priority := s.params.priorityFlip, mode := if full then .full else .grey,
                               rect := { c0 := 0, r0 := 0, c1 := 29, r1 := 39 } }
    let shown : State := { s with
      planes := { (front.set i { front.get i with held := (front.get i).held.map fun h => { h with part := .shown } }) with
        showPending := true, showing := [] }
      planner := { s.planner with queue := [request], flipCounter := if full then 0 else s.planner.flipCounter + 1, fullNext := false }
      notes := { s.notes with tiles := [], chain := 0, coalesce := none } }
    let ended : State := match s.cmd.executing with
      | none => shown
      | some h => { shown with cmd := { s.cmd with executing := none } }.commandRefused .superseded h.command.kind h.command.tag h.id h.ordinal
    s.flip i = attemptDispatch ended.grant

/-- R108, R109 and R133: PAGE_SHOW flips the READY page, and a request released ahead of it leaves no trace, cancelled at once by that flip; PAGE_DROP, after its release, frees the plane,
which may then be granted; without a READY plane, either is refused with NOTHING_READY after its release. That no lane can take the request between the release and the flip is
the model's reading of R133 (log 20). -/
def Obligations.ShowAndDropActOnTheReadyPage : Prop :=
  ∀ (s : State) (r : Record) (rest : List Record), Commands s r rest →
    let t := takenFrom s rest
    (r.kind = 0x40 → exec .pageShow s = .next (match s.planes.find .ready with
      | none => t.commandRefused .nothingReady r.kind r.tag r.kind.toNat 0
      | some i => State.flip { s with cmd := { s.cmd with queued := rest } } i)) ∧
    (r.kind = 0x41 → exec .pageDrop s = .next (match t.planes.find .ready with
      | none => t.commandRefused .nothingReady r.kind r.tag r.kind.toNat 0
      | some i => State.grant { t with planes := t.planes.set i { t.planes.get i with held := none } }))

/-! ### Chapter 7: notes -/

/-- R117, R118 and R120: the checks of a NOTE_OPEN in order and the note it opens, from the next ordinal on; and a NOTE_CLOSE, which ends an open note at the last ordinal
appended, or removes it if none was appended since it opened. -/
def Obligations.StreamNotesOpenAndClose : Prop :=
  ∀ (s : State) (r : Record) (rest : List Record) (i : PlaneId) (page : Page),
    TakesInPage s r rest → s.composingPage = some (i, page) →
    let id := r.u16 4
    let next := s.comp.nextOrdinal
    let done : State := { s with ring := rest }
    let refuse (why : NoteReason) : State := done.noteFault why r id next
    (r.kind = 0x0A → r.body.length = 4 → exec .noteOpen s = .next (match styleOf (r.u8 6) with
      | none => withEvent done .recordError
      | some style =>
        if id = 0 then refuse .badId
        else if (page.notes.any fun n => n.id == id) = true then refuse .duplicate
        else if 8 ≤ s.notes.openIds.length then refuse .openFull
        else if 64 ≤ page.notes.length then refuse .listFull
        else
          let n : Note := { id := id, style := style, tone := if style = .shade then max 1 (min 11 (r.u8 7)) else 0, start := next, stop := none,
                            continued := false, closedByPage := false, live := false }
          let opened : State := { done with
            planes := s.planes.setPage i { page with notes := insertNote n page.notes }
            notes := { s.notes with openIds := s.notes.openIds ++ [id] } }
          if style = .shade ∧ (r.u8 7 < 1 ∨ 11 < r.u8 7) then withEvent opened .paramClamped else opened)) ∧
    (r.kind = 0x0B → r.body.length = 2 →
      (id ∉ s.notes.openIds → exec .noteClose s = .next (refuse .notOpen)) ∧
      ∀ n, id ∈ s.notes.openIds → page.notes.find? (fun m => m.id == id) = some n →
        let left := if n.start < next then page.notes.map fun m => if m.id = id then { m with stop := some (next - 1) } else m
                    else page.notes.filter fun m => m.id != id
        exec .noteClose s = .next { done with
          planes := s.planes.setPage i { page with notes := left }
          notes := { s.notes with openIds := s.notes.openIds.erase id } }) ∧
    ∀ (n : Note) (l : List Note), (insertNote n l).Perm (n :: l) ∧
      (l.Pairwise (fun m n => m.before n = true) → (insertNote n l).Pairwise (fun m n => m.before n = true))

/-- R126 to R130, R135 and R166: the checks of NOTE_PAINT and NOTE_ERASE in order; an accepted one rewrites the front page's note list, restarts both timers, and redraws, now or
after a held wait, the lines that hold an ordinal of its ranges. That a refused
paint's detail holds the smaller ordinal whichever check fails is the model's reading of R126 (log 13). -/
def Obligations.PaintAndEraseRewriteTheFrontPage : Prop :=
  ∀ (s : State) (r : Record) (rest : List Record), Commands s r rest →
    let id := r.u16 4
    let start := min (r.u16 8) (r.u16 10)
    let stop := max (r.u16 8) (r.u16 10)
    let done : State := { s with cmd := { s.cmd with queued := rest } }
    let accepted (i : PlaneId) (page : Page) (notes : List Note) (ranges : List (Nat × Nat)) (ordinal : Nat) (events : EventUnit) : State :=
      let lines := touchedLines page.lines ranges
      State.rerender { done with
        events := events
        planes := s.planes.setPage i { page with notes := notes }
        notes := { s.notes with coalesce := some { due := s.tick + BitVec.ofNat 32 s.params.coalescing, passed := false } }
        planner := { s.planner with settle := some { due := s.tick + BitVec.ofNat 32 s.params.settle, passed := false } } }
        { command := r, lines := lines, tiles := rerenderTiles page.lines lines, id := id, ordinal := ordinal }
    (r.kind = 0x42 → r.body.length = 8 → exec .notePaint s = .next (match s.frontPage with
      | none => done.commandRefused .noPage r.kind r.tag id start
      | some (i, page) =>
        if id = 0 then done.commandRefused .badId r.kind r.tag id start
        else match styleOf (r.u8 6) with
          | none => done.commandRefused .badStyle r.kind r.tag id start
          | some style =>
            if page.glyphCount ≤ start then done.commandRefused .range r.kind r.tag id start
            else if page.notes.find? (fun n => n.id == id) = none ∧ 64 ≤ page.notes.length then
              done.commandRefused .listFull r.kind r.tag id start
            else
              let last := min stop (page.glyphCount - 1)
              let n : Note := { id := id, style := style, tone := if style = .shade then max 1 (min 11 (r.u8 7)) else 0, start := start,
                                stop := some last, continued := false, closedByPage := false, live := true }
              let old := match page.notes.find? (fun n => n.id == id) with
                | some m => (m.stop.map fun e => (m.start, e)).toList
                | none => []
              accepted i page (insertNote n (page.notes.filter fun m => m.id != id)) ((start, last) :: old) start
                (if last < stop ∨ (style = .shade ∧ (r.u8 7 < 1 ∨ 11 < r.u8 7)) then s.events.mark .paramClamped else s.events))) ∧
    (r.kind = 0x43 → r.body.length = 2 → exec .noteErase s = .next (match s.frontPage with
      | none => done.commandRefused .noPage r.kind r.tag id 0
      | some (i, page) => match page.notes.find? (fun n => n.id == id) with
        | none => done.commandRefused .unknown r.kind r.tag id 0
        | some n => accepted i page (page.notes.filter fun m => m.id != id) ((n.stop.map fun e => (n.start, e)).toList) 0 s.events))

/-- R129, R130 and R132: the lines and tiles of a re-render; it is held while a lane is SENDING one of its tiles from the front plane, and otherwise drawn at once: its tiles join
the hold set, which the eighth paint releases. -/
def Obligations.RerenderDrawsOrIsHeld : Prop :=
  (∀ (lines : List Line) (ranges : List (Nat × Nat)),
    (touchedLines lines ranges).Pairwise (· < ·) ∧
    (∀ k, k ∈ touchedLines lines ranges ↔ ∃ l, lines[k]? = some l ∧ ∃ q ∈ ranges, ∃ o, l.first ≤ o ∧ o < l.first + l.count ∧ q.1 ≤ o ∧ o ≤ q.2) ∧
    ∀ (idx : List Nat) (k : Nat), k ∈ rerenderTiles lines idx ↔
      ∃ j ∈ idx, ∃ l, lines[j]? = some l ∧ ∃ y, l.bandLo ≤ y ∧ y < l.bandHi ∧ k / 30 = y / 56) ∧
  ∀ (s : State) (h : HeldPaint) (i : PlaneId) (page : Page), s.frontPage = some (i, page) →
    let held : Prop := ∃ x ∈ s.lanes.lane.toList, x.state = .sending ∧ ∃ u, x.update = some u ∧ u.plane = i ∧ ∃ k ∈ h.tiles, u.rect.has k = true
    let drawn : State := { s with
      planes := s.planes.setPixels i ((h.lines.filterMap fun k => page.lines[k]?).foldl (drawLine s page) (s.planes.get i).pixels)
      notes := { s.notes with tiles := h.tiles.foldr insertNat s.notes.tiles, chain := s.notes.chain + 1 } }
    (held → s.rerender h = { s with cmd := { s.cmd with executing := some h } }) ∧
    (¬ held → s.rerender h = if 8 ≤ s.notes.chain + 1 then drawn.releaseHold else drawn)

/-- R134: a release empties the hold set, and, if it holds tiles, a FAST request of source PAINT arrives for their bounding box, the least rectangle that has them all. -/
def Obligations.ReleaseRequestsTheBoundingBox : Prop :=
  (∀ s : State,
    let emptied : State := { s with notes := { s.notes with tiles := [], chain := 0, coalesce := none } }
    (s.notes.tiles = [] → s.releaseHold = emptied) ∧
    ∀ q, boundingBox s.notes.tiles = some q → s.releaseHold = attemptDispatch { emptied with planner := { s.planner with
      queue := enqueue s.planner.queue { source := .paint, priority := s.params.priorityPaint, mode := .fast, rect := q } } }) ∧
  ∀ tiles : List Nat, (boundingBox tiles = none ↔ tiles = []) ∧
    ∀ q, boundingBox tiles = some q → (∀ k ∈ tiles, q.has k = true) ∧
      ∀ p : Rect, (∀ k ∈ tiles, p.has k = true) → p.c0 ≤ q.c0 ∧ q.c1 ≤ p.c1 ∧ p.r0 ≤ q.r0 ∧ q.r1 ≤ p.r1

/-! ### Chapter 9: requests and dispatch -/

/-- R155 to R157: any set of pending requests has a first and a last in dispatch order; and what the arrival of a request does to the queue. A request's place in the queue stands for its
arrival stamp (log 10). -/
def Obligations.ArrivalMergesOrJoins : Prop :=
  ∀ (q : List Request) (new : Request),
    let partner (k : Nat) : Prop := ∃ p, q[k]? = some p ∧ p.mode = new.mode ∧ p.rect.meets new.rect = true
    let box (p : Request) : Rect := { c0 := min p.rect.c0 new.rect.c0, r0 := min p.rect.r0 new.rect.r0,
                                      c1 := max p.rect.c1 new.rect.c1, r1 := max p.rect.r1 new.rect.r1 }
    let source (p : Request) : Source := if new.source.rank ≤ p.source.rank then p.source else new.source
    let mode (p : Request) : Mode := if p.mode = .full ∨ new.mode = .full then .full
      else if p.mode = .grey ∨ new.mode = .grey then .grey else .fast
    (∀ P : Nat → Prop, (∃ k < q.length, P k) →
      (∃ k < q.length, P k ∧ ∀ j < q.length, P j → j ≠ k → standsAhead q k j) ∧
      (∃ k < q.length, P k ∧ ∀ j < q.length, P j → j ≠ k → standsAhead q j k)) ∧
    (∀ k p, q[k]? = some p → partner k → (∀ j, partner j → j ≠ k → standsAhead q k j) →
      enqueue q new = q.set k { source := source p, priority := max p.priority new.priority, mode := p.mode, rect := box p }) ∧
    ((∀ k, ¬ partner k) → q.length < 16 → enqueue q new = q ++ [new]) ∧
    ((∀ k, ¬ partner k) → 16 ≤ q.length → ∀ k p, q[k]? = some p → (∀ j < q.length, j ≠ k → standsAhead q j k) →
      enqueue q new = q.set k { source := source p, priority := max p.priority new.priority, mode := mode p, rect := box p })

/-- R107, R158, R160, R173 and R174: a dispatch takes the first eligible request in dispatch order to the lowest-numbered IDLE lane, which becomes SENDING with the request, the
SHOWN plane, the threshold, limit and tick in force; a FLIP dispatch under the show-pending mark joins the showing lanes; a free transmitter takes the oldest lane of the
transmit order. None is made without such a lane or request, and the attempt repeats until none can be made. That none is made without a SHOWN
plane is the model's reading (log 14). -/
def Obligations.DispatchTakesTheFirstEligible : Prop :=
  ∀ s : State,
    (∀ i plane k r, s.lanes.lane[i].state = .idle → (∀ j < i, s.lanes.lane[j].state ≠ .idle) → s.planes.find .shown = some plane →
      eligible s k r → (∀ j p, eligible s j p → j ≠ k → standsAhead s.planner.queue k j) →
      let update : Update := {
        source := r.source, mode := r.mode, rect := r.rect, plane := plane, threshold := s.params.threshold, started := s.tick
        limit := match r.mode with | .full => s.params.limitFull | .grey => s.params.limitGrey | .fast => s.params.limitFast }
      dispatchOnce s = some { s with
        planner := { s.planner with queue := s.planner.queue.eraseIdx k }
        lanes := { s.lanes with
          lane := s.lanes.lane.set i { state := .sending, seq := s.lanes.lane[i].seq + 1, update := some update, elapsed := 0 }
          order := s.lanes.order ++ [i]
          tx := if s.lanes.tx = none then (s.lanes.order ++ [i]).head? else s.lanes.tx }
        planes := if s.planes.showPending = true ∧ r.source = .flip ∧ i ∉ s.planes.showing
          then { s.planes with showing := s.planes.showing ++ [i] } else s.planes }) ∧
    ((∀ i : Fin 4, s.lanes.lane[i].state ≠ .idle) ∨ s.planes.find .shown = none ∨ (∀ k r, ¬ eligible s k r) → dispatchOnce s = none) ∧
    attemptDispatch s = (match dispatchOnce s with
      | none => s
      | some t => attemptDispatch t)

/-- R164 and R165: a REFRESH_REQUEST is refused without a SHOWN plane or a mode; else a request of source REQUEST arrives for its rectangle, clamped to the panel and put in
order. -/
def Obligations.RefreshRequestArrives : Prop :=
  ∀ (s : State) (r : Record) (rest : List Record), Commands s r rest → r.kind = 0x44 →
    let t := takenFrom s rest
    let c0 := min (r.u8 4) 29
    let r0 := min (r.u8 5) 39
    let c1 := min (r.u8 6) 29
    let r1 := min (r.u8 7) 39
    let rect : Rect := { c0 := min c0 c1, r0 := min r0 r1, c1 := max c0 c1, r1 := max r0 r1 }
    let u := if 29 < r.u8 4 ∨ 39 < r.u8 5 ∨ 29 < r.u8 6 ∨ 39 < r.u8 7 then withEvent t .paramClamped else t
    let arrived (mode : Mode) : State := attemptDispatch { u with planner := { u.planner with
      queue := enqueue u.planner.queue { source := .request, priority := u.params.priorityRequest, mode := mode, rect := rect } } }
    exec .refreshRequest s = .next (
      if t.planes.find .shown = none then t.commandRefused .noPage r.kind r.tag (r.u8 8) 0
      else if r.u8 8 = 0 then arrived .full
      else if r.u8 8 = 1 then arrived .grey
      else if r.u8 8 = 2 then arrived .fast
      else t.commandRefused .badMode r.kind r.tag (r.u8 8) 0)

/-! ### Chapter 11: events and queries -/

/-- R30, R184 and R188: an EVENT_ACK clears the flags it names and empties their slots, and with STYLE_STACK_ERROR the two sticky flags. R18, R46, R49, R121, R184 and R186: in every
state, and so in that after an acknowledgement, a raised event sets its flag, and one that has a slot fills it afresh where it is empty, and keeps the first detail, marked,
where it holds one. And R181, R185 and R187: when each level event is true, and when ATTN_N is low (log 18). -/
def Obligations.EventAckClearsWhatItNames : Prop :=
  (∀ (s : State) (r : Record) (rest : List Record), Commands s r rest → r.kind = 0x45 →
    let t := takenFrom s rest
    let names (k : Nat) : Bool := (r.u16 4).testBit k
    let u := t.events.flags &&& ~~~ (BitVec.ofNat 16 (r.u16 4))
    exec .eventAck s = .next { t with
      events := { flags := u
                  face := if names 5 then none else t.events.face
                  glyph := if names 6 then none else t.events.glyph
                  table := if names 7 then none else t.events.table
                  note := if names 9 then none else t.events.note
                  command := if names 12 then none else t.events.command }
      faces := if names 8 then { t.faces with stackError := false, underflow := false } else t.faces }) ∧
  (∀ (s : State) (r : Record) (value ordinal : Nat),
    let put (ρ : Type) (slot : Option (Detail ρ)) (why : ρ) (kind tag : Byte) : Option (Detail ρ) := some (match slot with
      | none => { reason := why, kind := kind, tag := tag, value := value, ordinal := ordinal, more := false }
      | some d => { d with more := true })
    let raised (bit : Nat) : EventUnit := { s.events with flags := s.events.flags ||| BitVec.ofNat 16 (2 ^ bit) }
    (∀ why, s.faceFault why r value ordinal = { s with events := { raised 5 with face := put _ s.events.face why r.kind r.tag } }) ∧
    (∀ why, s.glyphMissing why r value ordinal = { s with events := { raised 6 with glyph := put _ s.events.glyph why r.kind r.tag } }) ∧
    (∀ why, s.tableFault why r value ordinal = { s with events := { raised 7 with table := put _ s.events.table why r.kind r.tag } }) ∧
    (∀ why, s.noteFault why r value ordinal = { s with events := { raised 9 with note := put _ s.events.note why r.kind r.tag } }) ∧
    (∀ why kind tag, s.commandRefused why kind tag value ordinal =
      { s with events := { raised 12 with command := put _ s.events.command why kind tag } }) ∧
    (∀ e : EdgeEvent, withEvent s e = { s with events := raised e.bit }) ∧
    [EdgeEvent.pageReady, .pageFull, .pageShown, .sequenceError, .recordError, .faceFault, .glyphMissing, .tableFault, .styleStackError,
      .noteFault, .framingError, .intakeOverrun, .commandRefused, .updateFailed, .lateDone, .paramClamped].map (·.bit) = List.range 16) ∧
  ∀ s : State,
    ((levelFlags s).getLsbD 0 = true ↔ s.ring = [] ∧ s.link.framing.reserved = 0) ∧
    ((levelFlags s).getLsbD 1 = true ↔ ∃ p, s.comp.state = .waitPlane p) ∧
    ((levelFlags s).getLsbD 2 = true ↔ ∃ i : Fin 4, s.lanes.lane[i].state = .faulted) ∧
    ((levelFlags s).getLsbD 3 = true ↔ ∀ i : Fin 4, s.lanes.lane[i].state = .faulted) ∧
    (attnLow s = true ↔ (∃ e : EdgeEvent, s.events.has e = true ∧ s.params.edgeMask.getLsbD e.bit = true) ∨
      ∃ k < 4, (levelFlags s).getLsbD k = true ∧ s.params.levelMask.getLsbD k = true)

/-- R10 and R189: a QUERY replaces the pending reply. A reply about a found object begins with the query kind and the tag; a NONE reply is 0xFF, the tag, the query kind and the
selector as sent. R190 and R191: the bytes of each reply, in order, numbers little-endian and signed ones in two's complement (00_scope, Byte order and layouts). The
elapsed count of a lane is given in its low 16 bits, the model's reading of R191 (log 15). -/
def Obligations.QueryRepliesByKind : Prop :=
  ∀ (s : State) (r : Record),
    (∀ rest, Commands s r rest → r.kind = 0x46 →
      let t := takenFrom s rest
      exec .query s = .next { t with link := { t.link with reply := queryReply t r, replaced := true } }) ∧
    let b (n : Nat) : Byte := BitVec.ofNat 8 n
    let w (n : Nat) : List Byte := [b n, b (n / 256)]
    let d (n : Nat) : List Byte := [b n, b (n / 256), b (n / 65536), b (n / 16777216)]
    let sb (z : Int) : Byte := BitVec.ofInt 8 z
    let bit (c : Bool) (weight : Nat) : Nat := if c then weight else 0
    let selector := r.u8 5
    let index := r.u16 6
    let none_ : Prop := queryReply s r = [0xFF, r.tag, r.byte 4, r.byte 5]
    let found (bytes : List Byte) : Prop := queryReply s r = r.byte 4 :: r.tag :: bytes
    let part (h : Held) : Nat := match h.part with | .composing => 1 | .ready => 2 | .shown => 3 | .retiring => 4
    let plane (i : PlaneId) : Nat := match i with | .a => 0 | .b => 1
    let style (n : Note) : Nat := match n.style with | .shade => 0 | .underline => 1 | .doubleUnderline => 2 | .marginBar => 3
    let lane (l : Lane) : List Byte :=
      [b (match l.state with | .idle => 0 | .sending => 1 | .waiting => 2 | .faulted => 3), l.seq] ++
      (match l.update with
        | none => [0xFF, 0xFF, 0, 0, 0, 0, 0, 0, 0, 0]
        | some u =>
          [b ((match u.source with | .flip => 0 | .paint => 1 | .request => 2 | .settle => 3 | .cleanup => 4)
             + 16 * (match u.mode with | .full => 0 | .grey => 1 | .fast => 2)),
           b (u.threshold + 16 * plane u.plane), b u.rect.c0, b u.rect.r0, b u.rect.c1, b u.rect.r1] ++ w u.limit ++ w u.started.toNat) ++
      w l.elapsed
    let fault (ρ : Type) (code : ρ → Nat) (e : EdgeEvent) (slot : Option (Detail ρ)) : Prop := found ([r.byte 5] ++
      (match slot with
        | none => [0, 0, 0, 0, 0, 0, 0, 0, 0]
        | some x => [1, b (bit x.more 1), b (code x.reason), x.kind, x.tag] ++ w x.value ++ w x.ordinal) ++ [b (bit (s.events.has e) 1)])
    -- FACE
    (r.u8 4 = 0 → (index ≠ 0 ∧ s.faces.face index = none → none_) ∧
      (index = 0 ∨ (s.faces.face index).isSome = true → found (
        [b index, b (bit (s.faces.face index).isSome 1)] ++
        (match s.faces.face index with
          | none => List.replicate 15 0
          | some f => [b f.table] ++ w f.firstCode ++ w f.lastCode ++ w f.replacement ++ w f.hyphen ++ w f.space ++
              [b f.ascent, b f.descent, b f.gap, b (useCount s index)]) ++
        [b s.faces.current, sb s.faces.shift, sb (s.faces.shift / 256), b s.faces.stack.length,
         b (bit s.faces.stackError 1 + bit s.faces.underflow 2)] ++
        (s.faces.stack.reverse.flatMap fun e => [b e.1, sb e.2, sb (e.2 / 256)]) ++ List.replicate (24 - 3 * s.faces.stack.length) 0 ++
        [b (bit (s.planes.a.faceSet.contains index) 1 + bit (s.planes.b.faceSet.contains index) 2)]))) ∧
    -- TABLE
    (r.u8 4 = 1 → (16 ≤ index → none_) ∧ ∀ t, s.glyphs[index]? = some t → found (
      [b index, b (match t.state with | .empty => 0 | .loading => 1 | .ready => 2 | .faulty => 3)] ++ d t.budget ++ d t.fill ++
      w t.glyphs.length ++ (match t.glyphs.getLast? with | none => [0, 0, 0] | some g => w g.code ++ [1]) ++
      d (s.glyphs.toList.map (·.budget)).sum)) ∧
    -- PAGE
    (r.u8 4 = 2 →
      (3 ≤ selector → none_) ∧
      ∀ p, (selector, p) ∈ [(0, Part.shown), (1, Part.ready), (2, Part.composing)] → (s.planes.find p = none → none_) ∧
        ∀ i h, s.planes.find p = some i → (s.planes.get i).held = some h →
          let ids := if p = .composing then s.notes.openIds else []
          found ([r.byte 5, b (plane i)] ++ d h.page.number.toNat ++
            w h.page.frame.left ++ w h.page.frame.right ++ w h.page.frame.top ++ w h.page.frame.bottom ++
            [b (bit h.page.frame.clamped 1 + bit h.page.overflowed 2 + bit h.page.continuation 4)] ++
            w (if p = .composing then s.comp.nextOrdinal else h.page.glyphCount) ++
            [b h.page.lines.length, b h.page.notes.length, b ids.length] ++ ids.flatMap w ++ List.replicate (16 - 2 * ids.length) 0)) ∧
    -- LINE and NOTE: none for a plane that is FREE or RETIRING, or holds no such line or note
    (r.u8 4 = 3 ∨ r.u8 4 = 4 → (2 ≤ selector → none_) ∧ ∀ i, plane i = selector →
      ((s.planes.get i).held = none → none_) ∧
      ∀ h, (s.planes.get i).held = some h → (h.part = .retiring → none_) ∧ (h.part ≠ .retiring →
        (r.u8 4 = 3 → (h.page.lines.length ≤ index → none_) ∧ ∀ l, h.page.lines[index]? = some l → found (
          [b (plane i), b (part h), b index] ++ w l.first ++ w l.count ++ w l.baseline ++ [b l.ascent, b l.descent, b l.gap] ++
          [sb l.offset, sb (l.offset / 256), sb (l.offset / 65536), sb (l.offset / 16777216)] ++
          [b (bit l.flags.justified 1 + bit l.flags.loose 2 + bit l.flags.forced 4 + bit l.flags.overwide 8 + bit l.flags.hyphenated 16
             + bit l.flags.paraFirst 32 + bit l.flags.paraLast 64 + bit l.flags.overtall 128)])) ∧
        (r.u8 4 = 4 → ((∀ n ∈ h.page.notes, n.id ≠ index) → none_) ∧
          ∀ k n, h.page.notes[k]? = some n → n.id = index → (∀ j m, j < k → h.page.notes[j]? = some m → m.id ≠ index) → found (
            [b (plane i), b (part h)] ++ w n.id ++ [b (style n), b n.tone] ++ w n.start ++ w (n.stop.getD 0) ++
            [b (bit n.stop.isSome 1 + bit n.continued 2 + bit n.closedByPage 4 + bit n.live 8), b k])))) ∧
    -- LANES
    (r.u8 4 = 5 → found (lane s.lanes.lane[0] ++ lane s.lanes.lane[1] ++ lane s.lanes.lane[2] ++ lane s.lanes.lane[3] ++
      w (min s.lanes.lastFull.toNat 65535) ++ w (min s.lanes.lastGrey.toNat 65535) ++ w (min s.lanes.lastFast.toNat 65535))) ∧
    -- TILE
    (r.u8 4 = 6 → (1200 ≤ index → none_) ∧ ∀ t, s.planner.tiles[index]? = some t → found (w index ++ [b t.residue, b (bit t.coarse 1)])) ∧
    -- FAULT
    (r.u8 4 = 7 →
      (selector = 0 → fault FaceReason FaceReason.code .faceFault s.events.face) ∧
      (selector = 1 → fault GlyphReason GlyphReason.code .glyphMissing s.events.glyph) ∧
      (selector = 2 → fault TableReason TableReason.code .tableFault s.events.table) ∧
      (selector = 3 → fault NoteReason NoteReason.code .noteFault s.events.note) ∧
      (selector = 4 → fault CommandReason CommandReason.code .commandRefused s.events.command) ∧ (5 ≤ selector → none_)) ∧
    [FaceReason.range, .absent, .inUse, .tableNotReady, .badEntry, .nullFace].map (·.code) = List.range' 1 6 ∧
    [GlyphReason.outOfRange, .undefined].map (·.code) = List.range' 1 2 ∧
    [TableReason.range, .notEmpty, .noRoom, .notLoading, .inUse, .field, .order, .count, .overfill, .bitmap].map (·.code) = List.range' 1 10 ∧
    [NoteReason.badId, .duplicate, .openFull, .listFull, .notOpen].map (·.code) = List.range' 1 5 ∧
    [CommandReason.unknownKind, .badLength, .queueFull, .nothingReady, .noPage, .badId, .badStyle, .range, .listFull, .unknown, .superseded,
      .badMode].map (·.code) = List.range' 1 12 ∧
    (8 ≤ r.u8 4 → none_)

/-- R12, R33, R57, R114 and R125: a STREAM_RESET leaves the Composer IDLE with nothing in hand, the face state null, the composing plane FREE with its pixels, no open note, and
the stream hold count one less. -/
def Obligations.StreamResetEndsTheStream : Prop :=
  ∀ (s : State) (r : Record) (rest : List Record), Commands s r rest → r.kind = 0x47 →
    let t := takenFrom s rest
    exec .streamReset s = .next { t with
      comp := { state := .idle, index := 0, buffer := [], nextOrdinal := 0, para := none, carry := [], applied := false }
      faces := { t.faces with current := 0, shift := 0, stack := [], stackError := false, underflow := false }
      planes := match t.planes.find .composing with
        | none => t.planes
        | some i => t.planes.set i { t.planes.get i with held := none }
      notes := { t.notes with openIds := [] }
      cmd := { t.cmd with streamHold := t.cmd.streamHold - 1 } }

/-- R113, R153, R170 and R182: a PANEL_RESET cuts the frame in hand, sends ABORT, makes every lane IDLE and every tile of a busy lane's rectangle unknown, empties the transmit
order and the showing lanes, frees a RETIRING plane (which may then be granted), removes every request, that of the hold set among them, and dispatches a FULL update of all tiles to
lane 0 if a plane is SHOWN, which joins the showing lanes under the show-pending mark. That PNL_TX is recorded is the model's choice (log 9), and so is that a frame taken counts as
part-way out (log 23); that no lane can take the released request first (log 20), and that lane 0 takes the reset's own whatever the priority floor (log 21), is its reading
of R133, R170 and R182. -/
def Obligations.PanelResetAbandonsEveryUpdate : Prop :=
  ∀ (s : State) (r : Record) (rest : List Record), Commands s r rest → r.kind = 0x48 →
    let t : State := { s with cmd := { s.cmd with queued := rest } }
    let abandoned (k : Nat) : Bool := t.lanes.lane.toList.any fun x => x.busy && (x.update.any fun u => u.rect.has k)
    let cut : List TxItem := match t.lanes.tx with
      | none => []
      | some i => [.cut i t.lanes.lane[i].seq]
    ∃ (tiles : Vector Tile 1200) (lane : Vector Lane 4),
      (∀ k : Fin 1200, tiles[k] = if abandoned k then { t.planner.tiles[k] with residue := 255 } else t.planner.tiles[k]) ∧
      (∀ i : Fin 4, lane[i] = { t.lanes.lane[i] with state := .idle }) ∧
      let u : State := { t with
        lanes := { t.lanes with lane := lane, order := [], tx := none, sent := t.lanes.sent ++ cut ++ [.abort] }
        planes := { t.planes with showing := [] }
        planner := { t.planner with tiles := tiles, queue := [], flipCounter := 0, fullNext := true }
        notes := { t.notes with tiles := [], chain := 0, coalesce := none } }
      let v : State := match t.planes.find .retiring with
        | none => u
        | some i => State.grant { u with planes := u.planes.set i { u.planes.get i with held := none } }
      let whole : Rect := { c0 := 0, r0 := 0, c1 := 29, r1 := 39 }
      exec .panelReset s = .next (match v.planes.find .shown with
        | none => v
        | some p => { v with
          lanes := { v.lanes with
            lane := v.lanes.lane.set 0 { state := .sending, seq := v.lanes.lane[0].seq + 1, elapsed := 0, update := some {
              source := .flip, mode := .full, rect := whole, plane := p, threshold := v.params.threshold, limit := v.params.limitFull
              started := v.tick } }
            order := [0], tx := some 0 }
          planes := { v.planes with showing := if v.planes.showPending = true then [0] else [] } })

/-! ### Chapter 10: lanes -/

/-- R110, R130, R174 and R175: a send's end. The lane becomes WAITING and leaves the transmit order, its frame stands on PNL_TX, a RETIRING plane from which no lane sends any more
is freed (and may then be granted), a held re-render of the front plane is tested again, and the transmitter takes the oldest lane still SENDING. That PNL_TX is recorded is
the model's choice (log 9). -/
def Obligations.SendEndFreesAndTests : Prop :=
  ∀ (s : State) (i : Fin 4) (u : Update), s.lanes.tx = some i → s.lanes.lane[i].update = some u →
    let l := s.lanes.lane[i]
    let frame : TxItem := .update i l.seq u.mode u.rect (frameLevels u.mode u.threshold u.rect (s.planes.get u.plane).pixels)
    let ended : State := { s with lanes := { s.lanes with
      lane := s.lanes.lane.set i { l with state := .waiting, elapsed := 0 }
      order := s.lanes.order.erase i, tx := none, sent := s.lanes.sent ++ [frame] } }
    let freed : State := match s.planes.find .retiring with
      | none => ended
      | some p =>
        if ended.lanes.lane.toList.any (fun x => x.sendsFrom p) = true then ended
        else State.grant { ended with planes := s.planes.set p { s.planes.get p with held := none } }
    let tested : State := match s.cmd.executing with
      | none => freed
      | some h => if s.planes.find .shown = some u.plane then State.rerender { freed with cmd := { freed.cmd with executing := none } } h
                  else freed
    exec .sendEnd s = .next { tested with lanes := { tested.lanes with
      tx := if tested.lanes.tx = none then tested.lanes.order.head? else tested.lanes.tx } }

/-- R107, R152, R153, R166 and R176 to R178: the bytes of PNL_RX (between frames 0xC1 begins one and any other byte is skipped; inside, a byte fills the next field, and the third
completes the frame; a break discards a partial one), and a whole completion frame. Where its lane is WAITING on its sequence number, the update ends: its tiles change by
result and mode, the duration is stored, UPDATE_FAILED and PAGE_SHOWN are raised as due, the lane becomes IDLE and dispatch is attempted; any other frame raises LATE_DONE
and changes nothing. That the byte that completes a frame and the frame are one step is the model's reading (log 6). -/
def Obligations.CompletionFrameEndsItsUpdate : Prop :=
  (∀ (s : State) (b : Byte),
    let rx (x : Option (List Byte)) : Host.Outcome State Fault Refusal := .next { s with lanes := { s.lanes with rx := x } }
    (s.lanes.rx = none → exec (.pnlRxByte b) s = rx (if b = 0xC1 then some [] else none)) ∧
    (∀ got, s.lanes.rx = some got → got.length < 2 → exec (.pnlRxByte b) s = rx (some (got ++ [b]))) ∧
    (∀ got, s.lanes.rx = some got → got.length = 2 → exec (.pnlRxByte b) s = exec (.completionFrame b) s) ∧
    exec .pnlRxBreak s = rx none) ∧
  ∀ (s : State) (lane seq result : Byte), s.lanes.rx = some [lane, seq] →
    let t : State := { s with lanes := { s.lanes with rx := none } }
    ((¬ ∃ i : Fin 4, lane.toNat = i ∧ s.lanes.lane[i].state = .waiting ∧ s.lanes.lane[i].seq = seq) →
      exec (.completionFrame result) s = .next (withEvent t .lateDone)) ∧
    ∀ (i : Fin 4) (u : Update), lane.toNat = i → s.lanes.lane[i].state = .waiting → s.lanes.lane[i].seq = seq → s.lanes.lane[i].update = some u →
      let updated (x : Tile) : Tile :=
        if result = 0 then match u.mode with
          | .full => { residue := 0, coarse := false }
          | .grey => { residue := min (x.residue + 2) 255, coarse := false }
          | .fast => { residue := min (x.residue + 8) 255, coarse := true }
        else { x with residue := 255 }
      let failed := if result = 0 then s.events else s.events.mark .updateFailed
      ∃ tiles : Vector Tile 1200,
        (∀ k : Fin 1200, tiles[k] = if u.rect.has k = true then updated s.planner.tiles[k] else s.planner.tiles[k]) ∧
        exec (.completionFrame result) s = .next (attemptDispatch { t with
          planner := { s.planner with
            tiles := tiles
            settle := if result = 0 ∧ u.mode = .fast ∧ s.planner.settle = none
              then some { due := s.tick + BitVec.ofNat 32 s.params.settle, passed := false } else s.planner.settle }
          lanes := { t.lanes with
            lane := s.lanes.lane.set i { s.lanes.lane[i] with state := .idle }
            lastFull := if u.mode = .full then s.tick - u.started else s.lanes.lastFull
            lastGrey := if u.mode = .grey then s.tick - u.started else s.lanes.lastGrey
            lastFast := if u.mode = .fast then s.tick - u.started else s.lanes.lastFast }
          events := if i ∈ s.planes.showing then failed.mark .pageShown else failed
          planes := if i ∈ s.planes.showing then { s.planes with showPending := false, showing := [] } else s.planes })

/-- R107, R153, R179 and R180: a WAITING lane that has reached its limit becomes FAULTED, its tiles unknown, leaves the showing lanes, and dispatch is attempted; before the limit, and
in any other state, there is no timeout. That a timeout without its occasion changes nothing is the model's reading (log 4). -/
def Obligations.TimeoutFaultsTheLane : Prop :=
  ∀ (s : State) (i : Fin 4),
    (∀ u, s.lanes.lane[i].update = some u → s.lanes.lane[i].state = .waiting → u.limit ≤ s.lanes.lane[i].elapsed / 16 →
      ∃ tiles : Vector Tile 1200,
        (∀ k : Fin 1200, tiles[k] = if u.rect.has k = true then { s.planner.tiles[k] with residue := 255 } else s.planner.tiles[k]) ∧
        exec (.laneTimeout i) s = .next (attemptDispatch { s with
          planner := { s.planner with tiles := tiles }
          planes := { s.planes with showing := s.planes.showing.erase i }
          lanes := { s.lanes with lane := s.lanes.lane.set i { s.lanes.lane[i] with state := .faulted } } })) ∧
    ((s.lanes.lane[i].state ≠ .waiting ∨ ∀ u, s.lanes.lane[i].update = some u → s.lanes.lane[i].elapsed / 16 < u.limit) →
      exec (.laneTimeout i) s = .next s)

/-! ### Timers (7.8, 9.8, 9.9) -/

/-- 00_scope (Time), R135, R166 to R169 and R179: the tick advances by one, every WAITING lane's elapsed count rises with it, and a deadline that it reaches has passed; and the three
expiries, each once its deadline has passed. The coalescing timer waits until all four slots of the Command Queue are free; the settle timer asks for a GREY update of the
coarse tiles, the sweep timer for a FULL update of the tiles at the residue limit, if a plane is SHOWN and there are such tiles. That expiries are
steps of their own, which may come late and change nothing without their occasion, is the model's reading (log 4, log 7). -/
def Obligations.TimersRunWithTheTick : Prop :=
  (∀ s : State,
    let where_ (p : Tile → Bool) : List Nat := (List.range 1200).filter fun k => s.planner.tiles[k]?.any p
    let ask (u : State) (source : Source) (priority : Nat) (mode : Mode) (p : Tile → Bool) : State :=
      match boundingBox (where_ p) with
      | none => u
      | some q =>
        let asked := enqueue s.planner.queue { source := source, priority := priority, mode := mode, rect := q }
        if s.planes.find .shown = none then u else attemptDispatch { u with planner := { u.planner with queue := asked } }
    let limit (t : Tile) : Bool := decide (s.params.residueLimit ≤ t.residue)
    let settled : State := { s with planner := { s.planner with settle := none } }
    let next : Option Deadline := if s.params.continuous = true ∧ s.params.sweep ≠ 0
      then some { due := s.tick + BitVec.ofNat 32 (s.params.sweep * 1000), passed := false } else none
    let swept : State := { s with planner := { s.planner with sweep := next } }
    (due s.notes.coalesce = true → s.cmd.queued = [] → s.cmd.executing = none → s.link.framing.reservesSlot = false →
      exec .coalescingTimerExpiry s = .next s.releaseHold) ∧
    (due s.notes.coalesce = false ∨ s.cmd.queued ≠ [] ∨ s.cmd.executing ≠ none ∨ s.link.framing.reservesSlot = true →
      exec .coalescingTimerExpiry s = .next s) ∧
    exec .settleTimerExpiry s = .next (
      if due s.planner.settle = true then ask settled .settle s.params.prioritySettle .grey (·.coarse) else s) ∧
    exec .sweepTimerExpiry s = .next (
      if due s.planner.sweep = true then ask swept .cleanup s.params.priorityCleanup .full limit else s)) ∧
  ∀ s : State,
    let now := s.tick + 1
    let reach (d : Option Deadline) : Option Deadline := d.map fun d => { d with passed := d.passed || d.due == now }
    ∃ lane : Vector Lane 4,
      (∀ i : Fin 4, lane[i] = { s.lanes.lane[i] with
        elapsed := if s.lanes.lane[i].state = .waiting then s.lanes.lane[i].elapsed + 1 else s.lanes.lane[i].elapsed }) ∧
      exec .tick s = .next { s with
        tick := now
        lanes := { s.lanes with lane := lane }
        notes := { s.notes with coalesce := reach s.notes.coalesce }
        planner := { s.planner with settle := reach s.planner.settle, sweep := reach s.planner.sweep } }

/-! ### Chapter 8: drawing -/

/-- R95 and R138 to R146: every pixel after a line is drawn. Outside the band it is as it was; in the band it starts as paper, takes the shades of the notes that mark its column, in list
order, then the ink of the line's drawn placements, in their order, then the underlines, and is 0 under a margin bar. The marked columns of a note are those of the boxes of the
entries it covers that do not hang. R147 and R149: what a frame carries: each pixel of its rectangle, at its own level in FULL and GREY, and in FAST as 15 at or above the
threshold and 0 below it; and the length of an UPDATE frame (10.2). -/
def Obligations.PixelsAreDrawnAndSent : Prop :=
  (∀ (s : State) (page : Page) (px : Pixels) (l : Line), px.wf → page.frame.left ≤ 1456 → StoreSafe s → s.params.Safe →
    (drawLine s page px l).wf ∧
    ∀ x y, x < 1680 → y < 2240 →
      let ps := (page.placements.drop l.first).take l.count
      let marks := markHanging (·.cls) ps
      let covers (n : Note) (o : Nat) : Bool := decide (n.start ≤ o ∧ ∀ e, n.stop = some e → o ≤ e)
      let notes := page.notes.filter fun n => (List.range' l.first l.count).any (covers n)
      let glyph (p : Placement) : Option Glyph :=
        if p.drawn then (s.faces.face p.face).bind fun f => (s.glyphs[f.table]?).bind fun t => t.find p.code else none
      let last (p : Placement) : Nat := if p.drawn then ((glyph p).map (·.advance)).getD 0
        else if p.cls = 2 then ((s.faces.face p.face).map (·.space)).getD 0 else 0
      let right (j : Nat) (p : Placement) : Int := match ps[j + 1]? with
        | some q => q.x
        | none => p.x + ((last p : Int) + 32) / 64
      let marked (n : Note) : Bool := marks.zipIdx.any fun q =>
        !q.1.2 && covers n q.1.1.ordinal && decide (q.1.1.x ≤ (x : Int) ∧ (x : Int) < right q.2 q.1.1)
      let ink (p : Placement) : Nat := match glyph p with
        | none => 0
        | some g =>
          let k := (x : Int) - (p.x + g.bearing)
          let r := (y : Int) - ((l.baseline : Int) - p.shift - g.top)
          if 0 ≤ k ∧ k < g.width ∧ 0 ≤ r ∧ r < g.height then (g.coverage.getD (r.toNat * g.width + k.toNat) 0).val else 0
      let ruled (n : Note) : Bool := (n.style == .underline && (y == l.baseline + 2 || y == l.baseline + 3)) ||
        (n.style == .doubleUnderline && (y == l.baseline + 2 || y == l.baseline + 5))
      let bar := if 12 ≤ page.frame.left then page.frame.left - 12 else 0
      let shaded := notes.foldl (fun v n => if n.style = .shade ∧ marked n = true then max s.params.shadeFloor (v - n.tone) else v) 15
      let inked := ps.foldl (fun v p => v - (2 * v * ink p + 15) / 30) shaded
      let lined := notes.foldl (fun v n => if ruled n = true ∧ marked n = true then min v 3 else v) inked
      ((drawLine s page px l).get (pixelAddr x y)).val =
        if l.baseline ≤ y + l.ascent ∧ y < l.baseline + l.descent + l.gap then
          (if (∃ n ∈ notes, n.style = .marginBar) ∧ bar ≤ x ∧ x < bar + 3 then 0 else lined)
        else (px.get (pixelAddr x y)).val) ∧
  ∀ (mode : Mode) (threshold : Nat) (q : Rect) (px : Pixels), px.wf → threshold ≤ 15 →
    (∀ x y, x < 1680 → y < 2240 →
      let v := px.get (pixelAddr x y)
      let inside : Prop := q.c0 ≤ x / 56 ∧ x / 56 ≤ q.c1 ∧ q.r0 ≤ y / 56 ∧ y / 56 ≤ q.r1
      (inside → (frameLevels mode threshold q px).get (pixelAddr x y) = if mode = .fast then (if threshold ≤ v.val then 15 else 0) else v) ∧
      (¬ inside → (frameLevels mode threshold q px).get (pixelAddr x y) = 15)) ∧
    ∀ lane seq levels, (updateFrameBytes lane seq mode q levels).length = 8 + (q.r1 + 1 - q.r0) * 56 * ((q.c1 + 1 - q.c0) * 28)

/-! ### What every step keeps -/

/-- The state after power-on is safe in every sense of Safety.lean. The planes' pixels, of which PixelSafe speaks, are the model's choice there (log 2). -/
def Obligations.ResetIsSafe : Prop :=
  LinkSafe State.reset ∧ FaceSafe State.reset ∧ StoreSafe State.reset ∧ PlaneSafe State.reset ∧ ComposerSafe State.reset ∧
  PixelSafe State.reset ∧ NoteSafe State.reset ∧ LaneSafe State.reset ∧ PlannerSafe State.reset ∧ EventSafe State.reset

/-- Chapter 1: the ring and the queue keep their bounds, and the stream hold count counts the STREAM_RESETs that wait. -/
def Obligations.StepKeepsLinkSafe : Prop := ∀ s t : State, LinkSafe s → step s = .next t → LinkSafe t

/-- Chapter 2: whatever the composer can reach through a handle stays present, and a present face names a READY table. -/
def Obligations.StepKeepsFaceSafe : Prop :=
  ∀ s t : State, PlaneSafe s → ComposerSafe s → FaceSafe s → step s = .next t → FaceSafe t

/-- R35 and 3.2: the budgets fit the store, and every table keeps to its own. -/
def Obligations.StepKeepsStoreSafe : Prop := ∀ s t : State, StoreSafe s → step s = .next t → StoreSafe t

/-- R96 and the laws that hang on the parts of the planes. -/
def Obligations.StepKeepsPlaneSafe : Prop := ∀ s t : State, PlaneSafe s → step s = .next t → PlaneSafe t

/-- R97 and the laws of the line buffer and the carry. -/
def Obligations.StepKeepsComposerSafe : Prop :=
  ∀ s t : State, PlaneSafe s → ComposerSafe s → step s = .next t → ComposerSafe t

/-- The canonical form of both planes' pixels. -/
def Obligations.StepKeepsPixelSafe : Prop :=
  ∀ s t : State, ComposerSafe s → PixelSafe s → step s = .next t → PixelSafe t

/-- R116, R119, R123 and R124: the laws of the note lists, every CLOSED note ending below its page's glyph count (on a continuation below the count it has with the
carried entries that wait for it, the model's reading of R116, log 22), and of the open-note list. -/
def Obligations.StepKeepsNoteSafe : Prop :=
  ∀ s t : State, PlaneSafe s → ComposerSafe s → NoteSafe s → step s = .next t → NoteSafe t

/-- R155, R158, R172 and R174: no tile lies in the rectangles of two busy lanes, the transmit order holds the SENDING lanes, and the showing lanes carry FLIP updates. -/
def Obligations.StepKeepsLaneSafe : Prop := ∀ s t : State, LaneSafe s → step s = .next t → LaneSafe t

/-- R132, R151, R154, R163 and R193: the ranges of the parameters and of the Planner's counts. -/
def Obligations.StepKeepsPlannerSafe : Prop := ∀ s t : State, PlannerSafe s → step s = .next t → PlannerSafe t

/-- R186: a slot holds a detail exactly while its flag is set. -/
def Obligations.StepKeepsEventSafe : Prop := ∀ s t : State, EventSafe s → step s = .next t → EventSafe t
end

