-- ==== Sys2Proof/Laws/State.lean ====
section
/-! SUPPORT. What each field of the state is after each named update: the field updated takes the new value, every other keeps its own. -/

namespace Sys2Proof.Machine

open Sys2Proof

variable (s : State)

/-! ### setPending -/

@[simp] theorem State.setPending_pending (x : List Instr) : (s.setPending x).pending = x := rfl
@[simp] theorem State.setPending_link (x : List Instr) : (s.setPending x).link = s.link := rfl
@[simp] theorem State.setPending_ring (x : List Instr) : (s.setPending x).ring = s.ring := rfl
@[simp] theorem State.setPending_cmd (x : List Instr) : (s.setPending x).cmd = s.cmd := rfl
@[simp] theorem State.setPending_faces (x : List Instr) : (s.setPending x).faces = s.faces := rfl
@[simp] theorem State.setPending_glyphs (x : List Instr) : (s.setPending x).glyphs = s.glyphs := rfl
@[simp] theorem State.setPending_comp (x : List Instr) : (s.setPending x).comp = s.comp := rfl
@[simp] theorem State.setPending_planes (x : List Instr) : (s.setPending x).planes = s.planes := rfl
@[simp] theorem State.setPending_notes (x : List Instr) : (s.setPending x).notes = s.notes := rfl
@[simp] theorem State.setPending_planner (x : List Instr) : (s.setPending x).planner = s.planner := rfl
@[simp] theorem State.setPending_lanes (x : List Instr) : (s.setPending x).lanes = s.lanes := rfl
@[simp] theorem State.setPending_tick (x : List Instr) : (s.setPending x).tick = s.tick := rfl
@[simp] theorem State.setPending_events (x : List Instr) : (s.setPending x).events = s.events := rfl
@[simp] theorem State.setPending_params (x : List Instr) : (s.setPending x).params = s.params := rfl

/-! ### setLink -/

@[simp] theorem State.setLink_pending (x : Link) : (s.setLink x).pending = s.pending := rfl
@[simp] theorem State.setLink_link (x : Link) : (s.setLink x).link = x := rfl
@[simp] theorem State.setLink_ring (x : Link) : (s.setLink x).ring = s.ring := rfl
@[simp] theorem State.setLink_cmd (x : Link) : (s.setLink x).cmd = s.cmd := rfl
@[simp] theorem State.setLink_faces (x : Link) : (s.setLink x).faces = s.faces := rfl
@[simp] theorem State.setLink_glyphs (x : Link) : (s.setLink x).glyphs = s.glyphs := rfl
@[simp] theorem State.setLink_comp (x : Link) : (s.setLink x).comp = s.comp := rfl
@[simp] theorem State.setLink_planes (x : Link) : (s.setLink x).planes = s.planes := rfl
@[simp] theorem State.setLink_notes (x : Link) : (s.setLink x).notes = s.notes := rfl
@[simp] theorem State.setLink_planner (x : Link) : (s.setLink x).planner = s.planner := rfl
@[simp] theorem State.setLink_lanes (x : Link) : (s.setLink x).lanes = s.lanes := rfl
@[simp] theorem State.setLink_tick (x : Link) : (s.setLink x).tick = s.tick := rfl
@[simp] theorem State.setLink_events (x : Link) : (s.setLink x).events = s.events := rfl
@[simp] theorem State.setLink_params (x : Link) : (s.setLink x).params = s.params := rfl

/-! ### setRing -/

@[simp] theorem State.setRing_pending (x : List Record) : (s.setRing x).pending = s.pending := rfl
@[simp] theorem State.setRing_link (x : List Record) : (s.setRing x).link = s.link := rfl
@[simp] theorem State.setRing_ring (x : List Record) : (s.setRing x).ring = x := rfl
@[simp] theorem State.setRing_cmd (x : List Record) : (s.setRing x).cmd = s.cmd := rfl
@[simp] theorem State.setRing_faces (x : List Record) : (s.setRing x).faces = s.faces := rfl
@[simp] theorem State.setRing_glyphs (x : List Record) : (s.setRing x).glyphs = s.glyphs := rfl
@[simp] theorem State.setRing_comp (x : List Record) : (s.setRing x).comp = s.comp := rfl
@[simp] theorem State.setRing_planes (x : List Record) : (s.setRing x).planes = s.planes := rfl
@[simp] theorem State.setRing_notes (x : List Record) : (s.setRing x).notes = s.notes := rfl
@[simp] theorem State.setRing_planner (x : List Record) : (s.setRing x).planner = s.planner := rfl
@[simp] theorem State.setRing_lanes (x : List Record) : (s.setRing x).lanes = s.lanes := rfl
@[simp] theorem State.setRing_tick (x : List Record) : (s.setRing x).tick = s.tick := rfl
@[simp] theorem State.setRing_events (x : List Record) : (s.setRing x).events = s.events := rfl
@[simp] theorem State.setRing_params (x : List Record) : (s.setRing x).params = s.params := rfl

/-! ### setCmd -/

@[simp] theorem State.setCmd_pending (x : CommandUnit) : (s.setCmd x).pending = s.pending := rfl
@[simp] theorem State.setCmd_link (x : CommandUnit) : (s.setCmd x).link = s.link := rfl
@[simp] theorem State.setCmd_ring (x : CommandUnit) : (s.setCmd x).ring = s.ring := rfl
@[simp] theorem State.setCmd_cmd (x : CommandUnit) : (s.setCmd x).cmd = x := rfl
@[simp] theorem State.setCmd_faces (x : CommandUnit) : (s.setCmd x).faces = s.faces := rfl
@[simp] theorem State.setCmd_glyphs (x : CommandUnit) : (s.setCmd x).glyphs = s.glyphs := rfl
@[simp] theorem State.setCmd_comp (x : CommandUnit) : (s.setCmd x).comp = s.comp := rfl
@[simp] theorem State.setCmd_planes (x : CommandUnit) : (s.setCmd x).planes = s.planes := rfl
@[simp] theorem State.setCmd_notes (x : CommandUnit) : (s.setCmd x).notes = s.notes := rfl
@[simp] theorem State.setCmd_planner (x : CommandUnit) : (s.setCmd x).planner = s.planner := rfl
@[simp] theorem State.setCmd_lanes (x : CommandUnit) : (s.setCmd x).lanes = s.lanes := rfl
@[simp] theorem State.setCmd_tick (x : CommandUnit) : (s.setCmd x).tick = s.tick := rfl
@[simp] theorem State.setCmd_events (x : CommandUnit) : (s.setCmd x).events = s.events := rfl
@[simp] theorem State.setCmd_params (x : CommandUnit) : (s.setCmd x).params = s.params := rfl

/-! ### setFaces -/

@[simp] theorem State.setFaces_pending (x : FaceTable) : (s.setFaces x).pending = s.pending := rfl
@[simp] theorem State.setFaces_link (x : FaceTable) : (s.setFaces x).link = s.link := rfl
@[simp] theorem State.setFaces_ring (x : FaceTable) : (s.setFaces x).ring = s.ring := rfl
@[simp] theorem State.setFaces_cmd (x : FaceTable) : (s.setFaces x).cmd = s.cmd := rfl
@[simp] theorem State.setFaces_faces (x : FaceTable) : (s.setFaces x).faces = x := rfl
@[simp] theorem State.setFaces_glyphs (x : FaceTable) : (s.setFaces x).glyphs = s.glyphs := rfl
@[simp] theorem State.setFaces_comp (x : FaceTable) : (s.setFaces x).comp = s.comp := rfl
@[simp] theorem State.setFaces_planes (x : FaceTable) : (s.setFaces x).planes = s.planes := rfl
@[simp] theorem State.setFaces_notes (x : FaceTable) : (s.setFaces x).notes = s.notes := rfl
@[simp] theorem State.setFaces_planner (x : FaceTable) : (s.setFaces x).planner = s.planner := rfl
@[simp] theorem State.setFaces_lanes (x : FaceTable) : (s.setFaces x).lanes = s.lanes := rfl
@[simp] theorem State.setFaces_tick (x : FaceTable) : (s.setFaces x).tick = s.tick := rfl
@[simp] theorem State.setFaces_events (x : FaceTable) : (s.setFaces x).events = s.events := rfl
@[simp] theorem State.setFaces_params (x : FaceTable) : (s.setFaces x).params = s.params := rfl

/-! ### setGlyphs -/

@[simp] theorem State.setGlyphs_pending (x : Vector GlyphTable 16) : (s.setGlyphs x).pending = s.pending := rfl
@[simp] theorem State.setGlyphs_link (x : Vector GlyphTable 16) : (s.setGlyphs x).link = s.link := rfl
@[simp] theorem State.setGlyphs_ring (x : Vector GlyphTable 16) : (s.setGlyphs x).ring = s.ring := rfl
@[simp] theorem State.setGlyphs_cmd (x : Vector GlyphTable 16) : (s.setGlyphs x).cmd = s.cmd := rfl
@[simp] theorem State.setGlyphs_faces (x : Vector GlyphTable 16) : (s.setGlyphs x).faces = s.faces := rfl
@[simp] theorem State.setGlyphs_glyphs (x : Vector GlyphTable 16) : (s.setGlyphs x).glyphs = x := rfl
@[simp] theorem State.setGlyphs_comp (x : Vector GlyphTable 16) : (s.setGlyphs x).comp = s.comp := rfl
@[simp] theorem State.setGlyphs_planes (x : Vector GlyphTable 16) : (s.setGlyphs x).planes = s.planes := rfl
@[simp] theorem State.setGlyphs_notes (x : Vector GlyphTable 16) : (s.setGlyphs x).notes = s.notes := rfl
@[simp] theorem State.setGlyphs_planner (x : Vector GlyphTable 16) : (s.setGlyphs x).planner = s.planner := rfl
@[simp] theorem State.setGlyphs_lanes (x : Vector GlyphTable 16) : (s.setGlyphs x).lanes = s.lanes := rfl
@[simp] theorem State.setGlyphs_tick (x : Vector GlyphTable 16) : (s.setGlyphs x).tick = s.tick := rfl
@[simp] theorem State.setGlyphs_events (x : Vector GlyphTable 16) : (s.setGlyphs x).events = s.events := rfl
@[simp] theorem State.setGlyphs_params (x : Vector GlyphTable 16) : (s.setGlyphs x).params = s.params := rfl

/-! ### setComp -/

@[simp] theorem State.setComp_pending (x : Composer) : (s.setComp x).pending = s.pending := rfl
@[simp] theorem State.setComp_link (x : Composer) : (s.setComp x).link = s.link := rfl
@[simp] theorem State.setComp_ring (x : Composer) : (s.setComp x).ring = s.ring := rfl
@[simp] theorem State.setComp_cmd (x : Composer) : (s.setComp x).cmd = s.cmd := rfl
@[simp] theorem State.setComp_faces (x : Composer) : (s.setComp x).faces = s.faces := rfl
@[simp] theorem State.setComp_glyphs (x : Composer) : (s.setComp x).glyphs = s.glyphs := rfl
@[simp] theorem State.setComp_comp (x : Composer) : (s.setComp x).comp = x := rfl
@[simp] theorem State.setComp_planes (x : Composer) : (s.setComp x).planes = s.planes := rfl
@[simp] theorem State.setComp_notes (x : Composer) : (s.setComp x).notes = s.notes := rfl
@[simp] theorem State.setComp_planner (x : Composer) : (s.setComp x).planner = s.planner := rfl
@[simp] theorem State.setComp_lanes (x : Composer) : (s.setComp x).lanes = s.lanes := rfl
@[simp] theorem State.setComp_tick (x : Composer) : (s.setComp x).tick = s.tick := rfl
@[simp] theorem State.setComp_events (x : Composer) : (s.setComp x).events = s.events := rfl
@[simp] theorem State.setComp_params (x : Composer) : (s.setComp x).params = s.params := rfl

/-! ### setPlanes -/

@[simp] theorem State.setPlanes_pending (x : Planes) : (s.setPlanes x).pending = s.pending := rfl
@[simp] theorem State.setPlanes_link (x : Planes) : (s.setPlanes x).link = s.link := rfl
@[simp] theorem State.setPlanes_ring (x : Planes) : (s.setPlanes x).ring = s.ring := rfl
@[simp] theorem State.setPlanes_cmd (x : Planes) : (s.setPlanes x).cmd = s.cmd := rfl
@[simp] theorem State.setPlanes_faces (x : Planes) : (s.setPlanes x).faces = s.faces := rfl
@[simp] theorem State.setPlanes_glyphs (x : Planes) : (s.setPlanes x).glyphs = s.glyphs := rfl
@[simp] theorem State.setPlanes_comp (x : Planes) : (s.setPlanes x).comp = s.comp := rfl
@[simp] theorem State.setPlanes_planes (x : Planes) : (s.setPlanes x).planes = x := rfl
@[simp] theorem State.setPlanes_notes (x : Planes) : (s.setPlanes x).notes = s.notes := rfl
@[simp] theorem State.setPlanes_planner (x : Planes) : (s.setPlanes x).planner = s.planner := rfl
@[simp] theorem State.setPlanes_lanes (x : Planes) : (s.setPlanes x).lanes = s.lanes := rfl
@[simp] theorem State.setPlanes_tick (x : Planes) : (s.setPlanes x).tick = s.tick := rfl
@[simp] theorem State.setPlanes_events (x : Planes) : (s.setPlanes x).events = s.events := rfl
@[simp] theorem State.setPlanes_params (x : Planes) : (s.setPlanes x).params = s.params := rfl

/-! ### setNotes -/

@[simp] theorem State.setNotes_pending (x : NoteUnit) : (s.setNotes x).pending = s.pending := rfl
@[simp] theorem State.setNotes_link (x : NoteUnit) : (s.setNotes x).link = s.link := rfl
@[simp] theorem State.setNotes_ring (x : NoteUnit) : (s.setNotes x).ring = s.ring := rfl
@[simp] theorem State.setNotes_cmd (x : NoteUnit) : (s.setNotes x).cmd = s.cmd := rfl
@[simp] theorem State.setNotes_faces (x : NoteUnit) : (s.setNotes x).faces = s.faces := rfl
@[simp] theorem State.setNotes_glyphs (x : NoteUnit) : (s.setNotes x).glyphs = s.glyphs := rfl
@[simp] theorem State.setNotes_comp (x : NoteUnit) : (s.setNotes x).comp = s.comp := rfl
@[simp] theorem State.setNotes_planes (x : NoteUnit) : (s.setNotes x).planes = s.planes := rfl
@[simp] theorem State.setNotes_notes (x : NoteUnit) : (s.setNotes x).notes = x := rfl
@[simp] theorem State.setNotes_planner (x : NoteUnit) : (s.setNotes x).planner = s.planner := rfl
@[simp] theorem State.setNotes_lanes (x : NoteUnit) : (s.setNotes x).lanes = s.lanes := rfl
@[simp] theorem State.setNotes_tick (x : NoteUnit) : (s.setNotes x).tick = s.tick := rfl
@[simp] theorem State.setNotes_events (x : NoteUnit) : (s.setNotes x).events = s.events := rfl
@[simp] theorem State.setNotes_params (x : NoteUnit) : (s.setNotes x).params = s.params := rfl

/-! ### setPlanner -/

@[simp] theorem State.setPlanner_pending (x : Planner) : (s.setPlanner x).pending = s.pending := rfl
@[simp] theorem State.setPlanner_link (x : Planner) : (s.setPlanner x).link = s.link := rfl
@[simp] theorem State.setPlanner_ring (x : Planner) : (s.setPlanner x).ring = s.ring := rfl
@[simp] theorem State.setPlanner_cmd (x : Planner) : (s.setPlanner x).cmd = s.cmd := rfl
@[simp] theorem State.setPlanner_faces (x : Planner) : (s.setPlanner x).faces = s.faces := rfl
@[simp] theorem State.setPlanner_glyphs (x : Planner) : (s.setPlanner x).glyphs = s.glyphs := rfl
@[simp] theorem State.setPlanner_comp (x : Planner) : (s.setPlanner x).comp = s.comp := rfl
@[simp] theorem State.setPlanner_planes (x : Planner) : (s.setPlanner x).planes = s.planes := rfl
@[simp] theorem State.setPlanner_notes (x : Planner) : (s.setPlanner x).notes = s.notes := rfl
@[simp] theorem State.setPlanner_planner (x : Planner) : (s.setPlanner x).planner = x := rfl
@[simp] theorem State.setPlanner_lanes (x : Planner) : (s.setPlanner x).lanes = s.lanes := rfl
@[simp] theorem State.setPlanner_tick (x : Planner) : (s.setPlanner x).tick = s.tick := rfl
@[simp] theorem State.setPlanner_events (x : Planner) : (s.setPlanner x).events = s.events := rfl
@[simp] theorem State.setPlanner_params (x : Planner) : (s.setPlanner x).params = s.params := rfl

/-! ### setLanes -/

@[simp] theorem State.setLanes_pending (x : LaneController) : (s.setLanes x).pending = s.pending := rfl
@[simp] theorem State.setLanes_link (x : LaneController) : (s.setLanes x).link = s.link := rfl
@[simp] theorem State.setLanes_ring (x : LaneController) : (s.setLanes x).ring = s.ring := rfl
@[simp] theorem State.setLanes_cmd (x : LaneController) : (s.setLanes x).cmd = s.cmd := rfl
@[simp] theorem State.setLanes_faces (x : LaneController) : (s.setLanes x).faces = s.faces := rfl
@[simp] theorem State.setLanes_glyphs (x : LaneController) : (s.setLanes x).glyphs = s.glyphs := rfl
@[simp] theorem State.setLanes_comp (x : LaneController) : (s.setLanes x).comp = s.comp := rfl
@[simp] theorem State.setLanes_planes (x : LaneController) : (s.setLanes x).planes = s.planes := rfl
@[simp] theorem State.setLanes_notes (x : LaneController) : (s.setLanes x).notes = s.notes := rfl
@[simp] theorem State.setLanes_planner (x : LaneController) : (s.setLanes x).planner = s.planner := rfl
@[simp] theorem State.setLanes_lanes (x : LaneController) : (s.setLanes x).lanes = x := rfl
@[simp] theorem State.setLanes_tick (x : LaneController) : (s.setLanes x).tick = s.tick := rfl
@[simp] theorem State.setLanes_events (x : LaneController) : (s.setLanes x).events = s.events := rfl
@[simp] theorem State.setLanes_params (x : LaneController) : (s.setLanes x).params = s.params := rfl

/-! ### setTick -/

@[simp] theorem State.setTick_pending (x : Tick) : (s.setTick x).pending = s.pending := rfl
@[simp] theorem State.setTick_link (x : Tick) : (s.setTick x).link = s.link := rfl
@[simp] theorem State.setTick_ring (x : Tick) : (s.setTick x).ring = s.ring := rfl
@[simp] theorem State.setTick_cmd (x : Tick) : (s.setTick x).cmd = s.cmd := rfl
@[simp] theorem State.setTick_faces (x : Tick) : (s.setTick x).faces = s.faces := rfl
@[simp] theorem State.setTick_glyphs (x : Tick) : (s.setTick x).glyphs = s.glyphs := rfl
@[simp] theorem State.setTick_comp (x : Tick) : (s.setTick x).comp = s.comp := rfl
@[simp] theorem State.setTick_planes (x : Tick) : (s.setTick x).planes = s.planes := rfl
@[simp] theorem State.setTick_notes (x : Tick) : (s.setTick x).notes = s.notes := rfl
@[simp] theorem State.setTick_planner (x : Tick) : (s.setTick x).planner = s.planner := rfl
@[simp] theorem State.setTick_lanes (x : Tick) : (s.setTick x).lanes = s.lanes := rfl
@[simp] theorem State.setTick_tick (x : Tick) : (s.setTick x).tick = x := rfl
@[simp] theorem State.setTick_events (x : Tick) : (s.setTick x).events = s.events := rfl
@[simp] theorem State.setTick_params (x : Tick) : (s.setTick x).params = s.params := rfl

/-! ### setEvents -/

@[simp] theorem State.setEvents_pending (x : EventUnit) : (s.setEvents x).pending = s.pending := rfl
@[simp] theorem State.setEvents_link (x : EventUnit) : (s.setEvents x).link = s.link := rfl
@[simp] theorem State.setEvents_ring (x : EventUnit) : (s.setEvents x).ring = s.ring := rfl
@[simp] theorem State.setEvents_cmd (x : EventUnit) : (s.setEvents x).cmd = s.cmd := rfl
@[simp] theorem State.setEvents_faces (x : EventUnit) : (s.setEvents x).faces = s.faces := rfl
@[simp] theorem State.setEvents_glyphs (x : EventUnit) : (s.setEvents x).glyphs = s.glyphs := rfl
@[simp] theorem State.setEvents_comp (x : EventUnit) : (s.setEvents x).comp = s.comp := rfl
@[simp] theorem State.setEvents_planes (x : EventUnit) : (s.setEvents x).planes = s.planes := rfl
@[simp] theorem State.setEvents_notes (x : EventUnit) : (s.setEvents x).notes = s.notes := rfl
@[simp] theorem State.setEvents_planner (x : EventUnit) : (s.setEvents x).planner = s.planner := rfl
@[simp] theorem State.setEvents_lanes (x : EventUnit) : (s.setEvents x).lanes = s.lanes := rfl
@[simp] theorem State.setEvents_tick (x : EventUnit) : (s.setEvents x).tick = s.tick := rfl
@[simp] theorem State.setEvents_events (x : EventUnit) : (s.setEvents x).events = x := rfl
@[simp] theorem State.setEvents_params (x : EventUnit) : (s.setEvents x).params = s.params := rfl

/-! ### setParams -/

@[simp] theorem State.setParams_pending (x : Params) : (s.setParams x).pending = s.pending := rfl
@[simp] theorem State.setParams_link (x : Params) : (s.setParams x).link = s.link := rfl
@[simp] theorem State.setParams_ring (x : Params) : (s.setParams x).ring = s.ring := rfl
@[simp] theorem State.setParams_cmd (x : Params) : (s.setParams x).cmd = s.cmd := rfl
@[simp] theorem State.setParams_faces (x : Params) : (s.setParams x).faces = s.faces := rfl
@[simp] theorem State.setParams_glyphs (x : Params) : (s.setParams x).glyphs = s.glyphs := rfl
@[simp] theorem State.setParams_comp (x : Params) : (s.setParams x).comp = s.comp := rfl
@[simp] theorem State.setParams_planes (x : Params) : (s.setParams x).planes = s.planes := rfl
@[simp] theorem State.setParams_notes (x : Params) : (s.setParams x).notes = s.notes := rfl
@[simp] theorem State.setParams_planner (x : Params) : (s.setParams x).planner = s.planner := rfl
@[simp] theorem State.setParams_lanes (x : Params) : (s.setParams x).lanes = s.lanes := rfl
@[simp] theorem State.setParams_tick (x : Params) : (s.setParams x).tick = s.tick := rfl
@[simp] theorem State.setParams_events (x : Params) : (s.setParams x).events = s.events := rfl
@[simp] theorem State.setParams_params (x : Params) : (s.setParams x).params = x := rfl

end Sys2Proof.Machine
end

