-- ==== Sys2Proof/Laws/Composing.lean ====
section
/-! SUPPORT. What commits, breaks, appends and the ends of paragraphs can change: the Composer, the planes and the event flags, and nothing else. -/

namespace Sys2Proof.Machine

open Sys2Proof

/-- The two states differ at most in the Composer, the planes and the events. -/
def ComposeFrame (s t : State) : Prop :=
  ∃ c p e, t = { s with comp := c, planes := p, events := e }

theorem ComposeFrame.refl (s : State) : ComposeFrame s s := ⟨s.comp, s.planes, s.events, rfl⟩

theorem ComposeFrame.trans {s t u : State} (h : ComposeFrame s t) (k : ComposeFrame t u) : ComposeFrame s u := by
  obtain ⟨c, p, e, rfl⟩ := h
  obtain ⟨c', p', e', rfl⟩ := k
  exact ⟨c', p', e', rfl⟩

theorem ComposeFrame.ring_eq {s t : State} (h : ComposeFrame s t) : t.ring = s.ring := by
  obtain ⟨c, p, e, rfl⟩ := h; rfl

theorem ComposeFrame.cmd_eq {s t : State} (h : ComposeFrame s t) : t.cmd = s.cmd := by
  obtain ⟨c, p, e, rfl⟩ := h; rfl

theorem pageFull_frame (s : State) : ComposeFrame s s.pageFull := by
  unfold State.pageFull
  split
  · exact ComposeFrame.refl s
  · exact ⟨_, _, _, rfl⟩

/-- R73 and R74: the two outcomes of a commit on an open page. -/
theorem commit_cases {s : State} {i : PlaneId} {page : Page} (h : s.composingPage = some (i, page)) (l : EndingLine) :
    s.commit l = if commitFails page (layOut s page l) then .full s.pageFull
                 else .placed (placeLine s i page l.entries.length (layOut s page l)) := by
  simp only [State.commit, h]

/-- Without an open page a commit does nothing. -/
theorem commit_none {s : State} (h : s.composingPage = none) (l : EndingLine) : s.commit l = .placed s := by
  simp only [State.commit, h]

theorem commit_frame (s : State) (l : EndingLine) : ComposeFrame s (s.commit l).state := by
  unfold State.commit
  split
  · exact ComposeFrame.refl s
  · dsimp only
    split
    · exact pageFull_frame s
    · exact ⟨_, _, s.events, rfl⟩

theorem andThen_frame {s : State} {c : Commit} {f : State → Commit} (hc : ComposeFrame s c.state)
    (hf : ∀ t, c = .placed t → ComposeFrame t (f t).state) : ComposeFrame s (c.andThen f).state := by
  cases c with
  | placed t => exact hc.trans (hf t rfl)
  | full t => exact hc

theorem breakUpTo_frame : ∀ (n : Nat) (s : State), ComposeFrame s (breakUpTo n s).state
  | 0, s => ComposeFrame.refl s
  | n + 1, s => by
    unfold breakUpTo
    split
    · exact ComposeFrame.refl s
    · exact andThen_frame (commit_frame s _) fun t _ => breakUpTo_frame n t

theorem breakTest_frame (s : State) : ComposeFrame s s.breakTest.state := breakUpTo_frame _ s

theorem mapComposingPage_frame (s : State) (f : Page → Page) : ComposeFrame s (s.mapComposingPage f) := by
  unfold State.mapComposingPage
  split
  · exact ComposeFrame.refl s
  · exact ⟨s.comp, _, s.events, rfl⟩

theorem join_frame (s : State) (e : Entry) : ComposeFrame s (s.join e) := by
  unfold State.join
  exact ComposeFrame.trans ⟨_, s.planes, s.events, rfl⟩ (mapComposingPage_frame _ _)

theorem bufferFull_frame (s : State) : ComposeFrame s s.bufferFull.state := by
  unfold State.bufferFull
  split
  · exact commit_frame s _
  · exact ComposeFrame.refl s

theorem afterAppend_frame (s : State) (cls : Nat) : ComposeFrame s (s.afterAppend cls).state := by
  unfold State.afterAppend
  refine andThen_frame ?_ fun t _ => bufferFull_frame t
  split
  · exact commit_frame s _
  · exact breakTest_frame s

theorem appendNew_frame (s : State) (r : Record) (code cls : Nat) : ComposeFrame s (s.appendNew r code cls).state := by
  unfold State.appendNew
  dsimp only
  refine ComposeFrame.trans (ComposeFrame.trans ?_ (join_frame _ _)) (afterAppend_frame _ _)
  split
  · exact ⟨s.comp, s.planes, _, rfl⟩
  · exact ComposeFrame.refl s

theorem endParagraph_frame (s : State) : ComposeFrame s s.endParagraph.state := by
  unfold State.endParagraph
  dsimp only
  split
  · exact ⟨_, s.planes, s.events, rfl⟩
  · exact andThen_frame (commit_frame s _) fun t _ => ⟨_, t.planes, t.events, rfl⟩

end Sys2Proof.Machine
end

