-- ==== Sys2Proof/Laws/Dispatch.lean ====
section
/-! SUPPORT. What dispatch, the arrival of a request and the release of the hold set can change. -/

namespace Sys2Proof.Machine

open Sys2Proof

/-- R158, R160, R173: everything that one dispatch does. -/
theorem dispatchAbove_eq_some {floor : Nat} {s t : State} (h : dispatchAbove floor s = some t) :
    ∃ i plane k r, s.lanes.idleLane = some i ∧ s.planes.find .shown = some plane ∧
      firstEligible floor s.lanes [] (dispatchOrder s.planner.queue) = some (k, r) ∧
      t = { s with planner := { s.planner with queue := removeAt k s.planner.queue }
                   lanes := s.lanes.start i r plane s.params s.tick
                   planes := s.planes.noteDispatch i r.source } := by
  unfold dispatchAbove at h
  split at h
  · next i plane k r h1 h2 h3 => exact ⟨i, plane, k, r, h1, h2, h3, (Option.some.inj h).symm⟩
  · exact absurd h (by simp)

theorem dispatchOnce_eq_some {s t : State} (h : dispatchOnce s = some t) :
    ∃ i plane k r, s.lanes.idleLane = some i ∧ s.planes.find .shown = some plane ∧
      firstEligible s.params.floor s.lanes [] (dispatchOrder s.planner.queue) = some (k, r) ∧
      t = { s with planner := { s.planner with queue := removeAt k s.planner.queue }
                   lanes := s.lanes.start i r plane s.params s.tick
                   planes := s.planes.noteDispatch i r.source } := dispatchAbove_eq_some h

/-- A property that each dispatch keeps is kept by the attempt. -/
theorem dispatchUpTo_induct {P : State → Prop} (step : ∀ t t', P t → dispatchOnce t = some t' → P t') :
    ∀ n s, P s → P (dispatchUpTo n s)
  | 0, _, h => h
  | n + 1, s, h => by
    unfold dispatchUpTo
    split
    · exact h
    · next t' ht => exact dispatchUpTo_induct step n t' (step s t' h ht)

theorem attemptDispatch_induct {P : State → Prop} (step : ∀ t t', P t → dispatchOnce t = some t' → P t') {s : State} (h : P s) :
    P (attemptDispatch s) := dispatchUpTo_induct step 4 s h

theorem noteDispatch_frame (p : Planes) (i : Fin 4) (source : Source) :
    ∃ w, p.noteDispatch i source = { p with showing := w } := by
  unfold Planes.noteDispatch
  split
  · exact ⟨_, rfl⟩
  · exact ⟨p.showing, rfl⟩

/-- The attempt to dispatch changes the pending requests, the lanes and the set of showing lanes alone. -/
theorem attemptDispatch_frame (s : State) :
    ∃ q l w, attemptDispatch s =
      { s with planner := { s.planner with queue := q }, lanes := l, planes := { s.planes with showing := w } } := by
  refine attemptDispatch_induct (P := fun t => ∃ q l w, t =
    { s with planner := { s.planner with queue := q }, lanes := l, planes := { s.planes with showing := w } }) ?_
    ⟨s.planner.queue, s.lanes, s.planes.showing, rfl⟩
  rintro t t' ⟨q, l, w, rfl⟩ ht
  obtain ⟨i, plane, k, r, -, -, -, rfl⟩ := dispatchAbove_eq_some ht
  obtain ⟨w', hw⟩ := noteDispatch_frame { s.planes with showing := w } i r.source
  exact ⟨_, _, w', by rw [hw]⟩

/-- So does the arrival of a request. -/
theorem arrive_frame (s : State) (source : Source) (mode : Mode) (q : Rect) :
    ∃ p l w, s.arrive source mode q =
      { s with planner := { s.planner with queue := p }, lanes := l, planes := { s.planes with showing := w } } := by
  obtain ⟨p, l, w, h⟩ := attemptDispatch_frame (s.enqueue source mode q)
  exact ⟨p, l, w, h⟩

/-- R134: a release without a dispatch changes the pending requests and empties the hold set. -/
theorem queueHold_frame (s : State) :
    ∃ q, s.queueHold = { s with planner := { s.planner with queue := q }, notes := s.notes.emptyHold } := by
  unfold State.queueHold
  split
  · exact ⟨s.planner.queue, rfl⟩
  · exact ⟨_, rfl⟩

/-- R170 and R182: the refresh of the whole panel changes what an arrival may change. -/
theorem refreshAll_frame (s : State) :
    ∃ q l w, s.refreshAll =
      { s with planner := { s.planner with queue := q }, lanes := l, planes := { s.planes with showing := w } } := by
  unfold State.refreshAll
  simp only
  split
  · exact ⟨_, s.lanes, s.planes.showing, rfl⟩
  · next t ht =>
    obtain ⟨i, plane, k, r, -, -, -, rfl⟩ := dispatchAbove_eq_some ht
    obtain ⟨w, hw⟩ := noteDispatch_frame (s.enqueue .flip .full wholePanel).planes i r.source
    exact ⟨_, _, w, by rw [hw]; rfl⟩

/-- R134: a release empties the hold set, and changes what an arrival may change. -/
theorem releaseHold_frame (s : State) :
    ∃ p l w, s.releaseHold =
      { s with planner := { s.planner with queue := p }, lanes := l, planes := { s.planes with showing := w },
               notes := s.notes.emptyHold } := by
  obtain ⟨q, hq⟩ := queueHold_frame s
  unfold State.releaseHold
  split
  · exact ⟨q, s.lanes, s.planes.showing, hq⟩
  · obtain ⟨p, l, w, h⟩ := attemptDispatch_frame s.queueHold
    rw [h, hq]
    exact ⟨p, l, w, rfl⟩

/-- R157: the queue's length after an arrival. -/
theorem modifyAt_length {α : Type} (f : α → α) (n : Nat) (l : List α) : (modifyAt f n l).length = l.length := by
  induction l generalizing n with
  | nil => cases n <;> rfl
  | cons x t ih => cases n with
    | zero => rfl
    | succ n => simp [modifyAt, ih]

/-- R155: sixteen requests at most. -/
theorem enqueue_length_le (q : List Request) (new : Request) (h : q.length ≤ 16) : (enqueue q new).length ≤ 16 := by
  unfold enqueue
  split
  · rw [modifyAt_length]; exact h
  · split
    · next hq => simp only [List.length_append, List.length_singleton]; exact hq
    · split
      · rw [modifyAt_length]; exact h
      · exact h

theorem removeAt_length_le {α : Type} (n : Nat) (l : List α) : (removeAt n l).length ≤ l.length := by
  induction l generalizing n with
  | nil => cases n <;> simp [removeAt]
  | cons x t ih => cases n with
    | zero => simp [removeAt]
    | succ n => simp [removeAt]; exact ih n

/-- A test that an image passes exactly where its original does holds somewhere in the list before exactly where it does after. -/
theorem any_modifyAt {α : Type} {p : α → Bool} {f : α → α} (hf : ∀ x, p (f x) = p x) (n : Nat) (l : List α) :
    (modifyAt f n l).any p = l.any p := by
  induction l generalizing n with
  | nil => cases n <;> rfl
  | cons x t ih => cases n with
    | zero => simp [modifyAt, hf]
    | succ n => simp [modifyAt, ih]

/-- R163: the arrival of a FAST request of source PAINT neither makes nor ends a pending FULL request of source FLIP. -/
theorem any_flipFull_enqueue (q : List Request) (priority : Nat) (rect : Rect) :
    (enqueue q { source := .paint, priority, mode := .fast, rect }).any (fun r => r.source == .flip && r.mode == .full) =
      q.any fun r => r.source == .flip && r.mode == .full := by
  have h1 (p : Request) : (p.source.higher .paint == Source.flip) = (p.source == .flip) := by cases p.source <;> rfl
  have h2 (p : Request) : (p.mode.stronger .fast == Mode.full) = (p.mode == .full) := by cases p.mode <;> rfl
  unfold enqueue
  split
  · exact any_modifyAt (fun p => by simp [Request.absorb, h1]) _ _
  · split
    · simp
    · split
      · exact any_modifyAt (fun p => by simp [Request.absorbAny, Request.absorb, h1, h2]) _ _
      · rfl

/-- R133 and R162: a request released ahead of a flip, without a dispatch, leaves no trace of itself behind that flip. -/
theorem flip_queueHold (s : State) (i : PlaneId) : s.queueHold.flip i = s.flip i := by
  obtain ⟨q, hq⟩ := queueHold_frame s
  have hf : flipFull { s.planner with queue := q } s.params.fullEvery = flipFull s.planner s.params.fullEvery := by
    have : (State.queueHold s).planner.queue = q := by rw [hq]
    rw [← this]
    unfold State.queueHold flipFull
    split
    · rfl
    · simp only [State.enqueue, State.setPlanner, State.setNotes]
      rw [any_flipFull_enqueue]
  have hr : ((s.queueHold.setPlanes (flipPlanes s.queueHold.planes s.queueHold.lanes i)).flipRequest) =
      (s.setPlanes (flipPlanes s.planes s.lanes i)).flipRequest := by
    rw [hq]
    simp only [State.flipRequest, State.setPlanes, hf, State.setPlanner, State.setNotes, NoteUnit.emptyHold, State.enqueue]; rfl
  unfold State.flip
  rw [hr]

/-- R170, step 4: with every lane IDLE and no other request, the refresh of the whole panel goes to lane 0, whatever the priority floor. -/
theorem refreshAll_of_idle {s : State} {p : PlaneId} (hl : ∀ i : Fin 4, s.lanes.lane[i].state = .idle) (hq : s.planner.queue = [])
    (hp : s.planes.find .shown = some p) :
    s.refreshAll = { s with
      lanes := s.lanes.start 0 { source := .flip, priority := s.params.priorityFlip, mode := .full, rect := wholePanel } p s.params s.tick
      planes := s.planes.noteDispatch 0 .flip } := by
  have hb : s.lanes.blocks wholePanel = false := by
    simp only [LaneController.blocks, List.any_eq_false]
    intro x hx
    obtain ⟨i, hi, rfl⟩ := List.mem_iff_getElem.1 hx
    have h4 : i < 4 := by simpa using hi
    have := hl ⟨i, h4⟩
    simp only [Fin.getElem_fin] at this
    simp [Lane.rect?, Lane.busy, this]
  have hi : s.lanes.idleLane = some 0 := by
    have h0 : s.lanes.lane[0].state = .idle := hl 0
    simp [LaneController.idleLane, laneIds, h0]
  have he : s.enqueue .flip .full wholePanel = { s with planner := { s.planner with
      queue := [{ source := .flip, priority := s.params.priorityFlip, mode := .full, rect := wholePanel }] } } := by
    simp only [State.enqueue, hq]; rfl
  have hk : firstEligible 0 s.lanes [] (dispatchOrder [{ source := .flip, priority := s.params.priorityFlip, mode := .full, rect := wholePanel }]) =
      some (0, { source := .flip, priority := s.params.priorityFlip, mode := .full, rect := wholePanel }) := by
    simp [dispatchOrder, numberedFrom, insertRequest, firstEligible, hb]
  have hz : ({ s.planner with queue := [] } : Planner) = s.planner := by rw [← hq]
  unfold State.refreshAll
  simp only [he, dispatchAbove, hi, hp, hk]
  simp only [State.setPlanner, State.setLanes, State.setPlanes, removeAt, hz]

end Sys2Proof.Machine
end

