-- ==== Sys2Proof/Laws/Pixels.lean ====
section
/-! SUPPORT. Reading the pixel store after each of its operations, and that each keeps the canonical form. -/

namespace Sys2Proof.Machine

open Sys2Proof

/-- A rising list whose every address lies above `k` reads as paper at `k`. -/
theorem Pixels.get_eq_paper {px : Pixels} {k : Nat} (h : ∀ p ∈ px, p.1 ≠ k) : px.get k = paper := by
  induction px with
  | nil => rfl
  | cons x t ih =>
    obtain ⟨a, v⟩ := x
    unfold Pixels.get
    rw [if_neg (h (a, v) (by simp)), ih fun p hp => h p (by simp [hp])]

theorem Pixels.wf_tail {x : Nat × Level} {t : Pixels} (h : Pixels.wf (x :: t)) : Pixels.wf t :=
  ⟨(List.pairwise_cons.1 h.1).2, fun p hp => h.2 p (List.mem_cons_of_mem _ hp)⟩

/-- Reading after a write: the value at its address, the old level elsewhere. -/
theorem Pixels.get_put {px : Pixels} (h : px.wf) (k : Nat) (v : Level) (j : Nat) :
    (px.put k v).get j = if j = k then v else px.get j := by
  induction px with
  | nil =>
    unfold Pixels.put
    split
    · next hv => simp only [Pixels.get]; split <;> simp [*]
    · simp only [Pixels.get]; split <;> split <;> first | rfl | omega
  | cons x t ih =>
    obtain ⟨a, w⟩ := x
    have hlt := (List.pairwise_cons.1 h.1).1
    unfold Pixels.put
    split
    · next hk =>
      have hp : Pixels.get ((a, w) :: t) k = paper := Pixels.get_eq_paper fun p hp => by
        rcases List.mem_cons.1 hp with rfl | hp
        · exact Nat.ne_of_gt hk
        · exact Nat.ne_of_gt (Nat.lt_trans hk (hlt p hp))
      split
      · next hv =>
        split
        · next hj => rw [hj, hp, hv]
        · rfl
      · show (if k = j then v else Pixels.get ((a, w) :: t) j) = _
        split <;> split <;> first | rfl | omega
    · split
      · next hk =>
        subst hk
        have hp : Pixels.get t k = paper := Pixels.get_eq_paper fun p hp => Nat.ne_of_gt (hlt p hp)
        split
        · next hv =>
          show Pixels.get t j = if j = k then v else (if k = j then w else Pixels.get t j)
          split
          · next hj => rw [hj, hp, hv]
          · rw [if_neg (by omega)]
        · show (if k = j then v else Pixels.get t j) = if j = k then v else (if k = j then w else Pixels.get t j)
          split <;> split <;> first | rfl | omega
      · show (if a = j then w else Pixels.get (Pixels.put t k v) j) = if j = k then v else (if a = j then w else Pixels.get t j)
        rw [ih (Pixels.wf_tail h)]
        split <;> split <;> first | rfl | omega

/-- The addresses of a store after a write are those before, and that of the write. -/
theorem Pixels.mem_put {px : Pixels} {k : Nat} {v : Level} {p : Nat × Level} (h : p ∈ px.put k v) :
    p ∈ px ∨ (p = (k, v) ∧ v ≠ paper) := by
  induction px with
  | nil =>
    unfold Pixels.put at h
    split at h
    · simp at h
    · next hv => exact .inr ⟨by simpa using h, hv⟩
  | cons x t ih =>
    obtain ⟨a, w⟩ := x
    unfold Pixels.put at h
    split at h
    · split at h
      · exact .inl h
      · next hv =>
        rcases List.mem_cons.1 h with h | h
        · exact .inr ⟨h, hv⟩
        · exact .inl h
    · split at h
      · split at h
        · exact .inl (List.mem_cons_of_mem _ h)
        · next hv =>
          rcases List.mem_cons.1 h with h | h
          · exact .inr ⟨h, hv⟩
          · exact .inl (List.mem_cons_of_mem _ h)
      · rcases List.mem_cons.1 h with h | h
        · exact .inl (by simp [h])
        · rcases ih h with h | h
          · exact .inl (List.mem_cons_of_mem _ h)
          · exact .inr h

/-- A write inside the plane keeps the canonical form. -/
theorem Pixels.put_wf {px : Pixels} (h : px.wf) {k : Nat} (hk : k < Config.panelWidth * Config.panelHeight) (v : Level) : (px.put k v).wf := by
  refine ⟨?_, fun p hp => ?_⟩
  · induction px with
    | nil => unfold Pixels.put; split <;> simp
    | cons x t ih =>
      obtain ⟨a, w⟩ := x
      have hs := List.pairwise_cons.1 h.1
      unfold Pixels.put
      split
      · next hka =>
        split
        · exact h.1
        · refine List.pairwise_cons.2 ⟨fun q hq => ?_, h.1⟩
          rcases List.mem_cons.1 hq with rfl | hq
          · exact hka
          · exact Nat.lt_trans hka (hs.1 q hq)
      · split
        · next hka =>
          split
          · exact hs.2
          · exact List.pairwise_cons.2 ⟨fun q hq => hka ▸ hs.1 q hq, hs.2⟩
        · refine List.pairwise_cons.2 ⟨fun q hq => ?_, ih (Pixels.wf_tail h)⟩
          rcases Pixels.mem_put hq with hq | ⟨rfl, -⟩
          · exact hs.1 q hq
          · show a < k; omega
  · rcases Pixels.mem_put hp with hp | ⟨rfl, hv⟩
    · exact h.2 p hp
    · exact ⟨hv, hk⟩

theorem Pixels.get_modify {px : Pixels} (h : px.wf) (k : Nat) (f : Level → Level) (j : Nat) :
    (px.modify k f).get j = if j = k then f (px.get j) else px.get j := by
  unfold Pixels.modify
  rw [Pixels.get_put h]
  split
  · next hj => rw [hj]
  · rfl

theorem Pixels.modify_wf {px : Pixels} (h : px.wf) {k : Nat} (hk : k < Config.panelWidth * Config.panelHeight) (f : Level → Level) :
    (px.modify k f).wf := Pixels.put_wf h hk _

theorem Pixels.modifyAll_wf {px : Pixels} (h : px.wf) (f : Level → Level) {l : List Nat}
    (hl : ∀ k ∈ l, k < Config.panelWidth * Config.panelHeight) : (px.modifyAll f l).wf := by
  induction l generalizing px with
  | nil => exact h
  | cons k t ih => exact ih (Pixels.modify_wf h (hl k (by simp)) f) fun j hj => hl j (by simp [hj])

/-- A pixel none of whose addresses is listed keeps its level. -/
theorem Pixels.get_modifyAll {px : Pixels} (h : px.wf) (f : Level → Level) {l : List Nat}
    (hl : ∀ k ∈ l, k < Config.panelWidth * Config.panelHeight) {j : Nat} (hj : j ∉ l) : (px.modifyAll f l).get j = px.get j := by
  induction l generalizing px with
  | nil => rfl
  | cons k t ih =>
    have hk := Pixels.modify_wf h (hl k (by simp)) f
    rw [Pixels.modifyAll, ih hk (fun i hi => hl i (by simp [hi])) (fun hi => hj (by simp [hi])), Pixels.get_modify h,
      if_neg fun e => hj (by simp [e])]

/-- Reading from a store of which only the entries that satisfy a test on their address are left. -/
theorem Pixels.get_filter (c : Nat → Bool) (px : Pixels) (j : Nat) :
    Pixels.get (px.filter fun p => c p.1) j = if c j = true then px.get j else paper := by
  induction px with
  | nil => simp [Pixels.get]
  | cons x t ih =>
    obtain ⟨a, v⟩ := x
    rw [List.filter_cons]
    split
    · next hc =>
      simp only [Pixels.get, ih]
      split
      · next he => subst he; rw [if_pos hc]
      · rfl
    · next hc =>
      rw [ih]
      simp only [Pixels.get]
      split
      · split
        · next he => subst he; contradiction
        · rfl
      · rfl

theorem Pixels.filter_wf {px : Pixels} (h : px.wf) (c : Nat × Level → Bool) : Pixels.wf (px.filter c) :=
  ⟨h.1.filter _, fun p hp => h.2 p (List.mem_filter.1 hp).1⟩

/-- R139: clearing rows. -/
theorem Pixels.get_clearRows (px : Pixels) (lo hi j : Nat) :
    (px.clearRows lo hi).get j = if lo * Config.panelWidth ≤ j ∧ j < hi * Config.panelWidth then paper else px.get j := by
  unfold Pixels.clearRows
  rw [Pixels.get_filter fun a => a < lo * Config.panelWidth || hi * Config.panelWidth ≤ a]
  simp only [Bool.or_eq_true, decide_eq_true_eq]
  split <;> split <;> first | rfl | omega

theorem Pixels.clearRows_wf {px : Pixels} (h : px.wf) (lo hi : Nat) : (px.clearRows lo hi).wf := Pixels.filter_wf h _

end Sys2Proof.Machine
end

