-- ==== Sys2Proof/Laws/Drawing.lean ====
section
/-! SUPPORT. Every drawing step of the Raster Engine keeps the canonical form of the pixels. -/

namespace Sys2Proof.Machine

open Sys2Proof

theorem Line.bandHi_le (l : Line) : l.bandHi ≤ Config.panelHeight := Nat.min_le_right _ _

/-- A column and a row of the panel give an address of the plane. -/
theorem pixelAddr_lt {x y : Nat} (hx : x < Config.panelWidth) (hy : y < Config.panelHeight) :
    pixelAddr x y < Config.panelWidth * Config.panelHeight := by
  simp only [pixelAddr, Config.panelWidth, Config.panelHeight] at *; omega

theorem mem_addrsOf {columns : List Nat} {lo hi k : Nat} :
    k ∈ addrsOf columns lo hi ↔ ∃ y, lo ≤ y ∧ y < hi ∧ ∃ x ∈ columns, pixelAddr x y = k := by
  simp only [addrsOf, List.mem_flatMap, List.mem_range', List.mem_map]
  constructor
  · rintro ⟨y, ⟨i, hi', rfl⟩, x, hx, rfl⟩; exact ⟨_, by omega, by omega, x, hx, rfl⟩
  · rintro ⟨y, h1, h2, x, hx, rfl⟩; exact ⟨y, ⟨y - lo, by omega, by omega⟩, x, hx, rfl⟩

theorem addrsOf_lt {columns : List Nat} {lo hi : Nat} (hc : ∀ x ∈ columns, x < Config.panelWidth) (hh : hi ≤ Config.panelHeight) :
    ∀ k ∈ addrsOf columns lo hi, k < Config.panelWidth * Config.panelHeight := by
  intro k hk
  obtain ⟨y, -, h2, x, hx, rfl⟩ := mem_addrsOf.1 hk
  exact pixelAddr_lt (hc x hx) (Nat.lt_of_lt_of_le h2 hh)

theorem markedColumns_lt (n : Note) (boxes : List (Nat × Int × Int)) : ∀ x ∈ markedColumns n boxes, x < Config.panelWidth := by
  intro x hx
  unfold markedColumns at hx
  simp only at hx
  split at hx
  · simp at hx
  · exact List.mem_range.1 (List.mem_filter.1 hx).1

theorem drawCoverage_wf (x0 y0 : Int) (width lo hi i : Nat) (hh : hi ≤ Config.panelHeight) (cs : List Level) {px : Pixels} (h : px.wf) :
    (drawCoverage x0 y0 width lo hi i cs px).wf := by
  induction cs generalizing px i with
  | nil => exact h
  | cons c t ih =>
    unfold drawCoverage
    refine ih _ ?_
    split
    · next hc =>
      simp only [Bool.and_eq_true, decide_eq_true_eq] at hc
      refine Pixels.modify_wf h (pixelAddr_lt ?_ ?_) _ <;> omega
    · exact h

theorem drawGlyph_wf (s : State) (l : Line) {px : Pixels} (h : px.wf) (p : Placement) : (drawGlyph s l px p).wf := by
  unfold drawGlyph
  split
  · exact h
  · split
    · exact h
    · exact drawCoverage_wf _ _ _ _ _ _ l.bandHi_le _ h

theorem drawShade_wf (s : State) (l : Line) (boxes : List (Nat × Int × Int)) {px : Pixels} (h : px.wf) (n : Note) :
    (drawShade s l boxes px n).wf := by
  unfold drawShade
  split
  · exact Pixels.modifyAll_wf h _ (addrsOf_lt (markedColumns_lt n boxes) l.bandHi_le)
  · exact h

theorem drawUnderlineRow_wf (l : Line) {columns : List Nat} (hc : ∀ x ∈ columns, x < Config.panelWidth) (y : Nat) {px : Pixels} (h : px.wf) :
    (drawUnderlineRow l columns y px).wf := by
  unfold drawUnderlineRow
  split
  · next hy =>
    simp only [Bool.and_eq_true, decide_eq_true_eq] at hy
    exact Pixels.modifyAll_wf h _ (addrsOf_lt hc (Nat.le_trans hy.2 l.bandHi_le))
  · exact h

theorem drawUnderline_wf (l : Line) (boxes : List (Nat × Int × Int)) {px : Pixels} (h : px.wf) (n : Note) : (drawUnderline l boxes px n).wf := by
  have hc := markedColumns_lt n boxes
  unfold drawUnderline
  split
  · exact drawUnderlineRow_wf l hc _ (drawUnderlineRow_wf l hc _ h)
  · exact drawUnderlineRow_wf l hc _ (drawUnderlineRow_wf l hc _ h)
  · exact h
  · exact h

/-- R99 keeps the left margin so small that the bar's columns lie on the panel. -/
theorem drawBar_wf (page : Page) (hp : page.frame.left ≤ Config.maxSideMargins) (l : Line) {px : Pixels} (h : px.wf) (n : Note) :
    (drawBar page l px n).wf := by
  unfold drawBar
  split
  · refine Pixels.modifyAll_wf h _ (addrsOf_lt ?_ l.bandHi_le)
    intro x hx
    simp only [Config.maxSideMargins] at hp
    simp only [barColumns] at hx
    split at hx <;> simp only [List.mem_cons, List.not_mem_nil, or_false] at hx <;> simp only [Config.panelWidth] <;> omega
  · exact h

/-- A fold of steps that keep the canonical form keeps it. -/
theorem foldl_wf {α : Type} {f : Pixels → α → Pixels} (hf : ∀ px : Pixels, px.wf → ∀ x, (f px x).wf) (l : List α) {px : Pixels} (h : px.wf) :
    (l.foldl f px).wf := by
  induction l generalizing px with
  | nil => exact h
  | cons x t ih => exact ih (hf px h x)

end Sys2Proof.Machine
end

