-- ==== Sys2Proof/Laws/DrawnPixels.lean ====
section
/-! SUPPORT. What each drawing step of the Raster Engine makes of one pixel, and that a fold of such steps acts on it one after another. -/

namespace Sys2Proof.Machine

open Sys2Proof

theorem pixelAddr_inj {x y x' y' : Nat} (hx : x < Config.panelWidth) (hx' : x' < Config.panelWidth) :
    pixelAddr x y = pixelAddr x' y' ↔ x = x' ∧ y = y' := by
  simp only [pixelAddr, Config.panelWidth] at *; omega

theorem pixelAddr_mem_addrsOf {columns : List Nat} (hc : ∀ x ∈ columns, x < Config.panelWidth) {lo hi x y : Nat} (hx : x < Config.panelWidth) :
    pixelAddr x y ∈ addrsOf columns lo hi ↔ x ∈ columns ∧ lo ≤ y ∧ y < hi := by
  rw [mem_addrsOf]
  constructor
  · rintro ⟨y', h1, h2, x', hm, he⟩
    obtain ⟨rfl, rfl⟩ := (pixelAddr_inj (hc x' hm) hx).1 he
    exact ⟨hm, h1, h2⟩
  · rintro ⟨hm, h1, h2⟩; exact ⟨y, h1, h2, x, hm, rfl⟩

theorem addrsOf_nodup {columns : List Nat} (hn : columns.Nodup) (hc : ∀ x ∈ columns, x < Config.panelWidth) (lo hi : Nat) :
    (addrsOf columns lo hi).Nodup := by
  refine List.nodup_flatMap.2 ⟨fun y _ => ?_, ?_⟩
  · refine List.Nodup.map_on (fun x hx x' hx' he => ?_) hn
    exact ((pixelAddr_inj (hc x hx) (hc x' hx')).1 he).1
  · refine (List.nodup_range' (step := 1)).imp fun {y y'} hne => ?_
    rw [Function.onFun, List.disjoint_left]
    intro k hk hk'
    obtain ⟨x, hx, rfl⟩ := List.mem_map.1 hk
    obtain ⟨x', hx', he⟩ := List.mem_map.1 hk'
    exact hne ((pixelAddr_inj (hc x' hx') (hc x hx)).1 he).2.symm

/-- An operation on addresses listed once each acts once on each of them. -/
theorem Pixels.get_modifyAll_nodup {px : Pixels} (h : px.wf) (f : Level → Level) {l : List Nat}
    (hl : ∀ k ∈ l, k < Config.panelWidth * Config.panelHeight) (hn : l.Nodup) (j : Nat) :
    (px.modifyAll f l).get j = if j ∈ l then f (px.get j) else px.get j := by
  induction l generalizing px with
  | nil => rfl
  | cons k t ih =>
    have hk := Pixels.modify_wf h (hl k (by simp)) f
    have hd := List.nodup_cons.1 hn
    rw [Pixels.modifyAll, ih hk (fun i hi => hl i (by simp [hi])) hd.2, Pixels.get_modify h]
    by_cases hj : j = k
    · subst hj; simp [hd.1]
    · simp [hj]

/-- A drawing operation over columns and rows, read at one pixel. -/
theorem Pixels.get_modifyAll_addrsOf {px : Pixels} (h : px.wf) (f : Level → Level) {columns : List Nat} (hn : columns.Nodup)
    (hc : ∀ x ∈ columns, x < Config.panelWidth) {lo hi : Nat} (hh : hi ≤ Config.panelHeight) {x y : Nat} (hx : x < Config.panelWidth) :
    (px.modifyAll f (addrsOf columns lo hi)).get (pixelAddr x y) =
      if x ∈ columns ∧ lo ≤ y ∧ y < hi then f (px.get (pixelAddr x y)) else px.get (pixelAddr x y) := by
  rw [Pixels.get_modifyAll_nodup h f (addrsOf_lt hc hh) (addrsOf_nodup hn hc lo hi), if_congr (pixelAddr_mem_addrsOf hc hx) rfl rfl]

theorem markedColumns_nodup (n : Note) (boxes : List (Nat × Int × Int)) : (markedColumns n boxes).Nodup := by
  unfold markedColumns
  simp only
  split
  · exact .nil
  · exact List.nodup_range.filter _

/-- R141: a column is marked when it lies in the box of an entry that the note covers. -/
theorem mem_markedColumns {n : Note} {boxes : List (Nat × Int × Int)} {x : Nat} (hx : x < Config.panelWidth) :
    x ∈ markedColumns n boxes ↔ ∃ b ∈ boxes, n.covers b.1 = true ∧ b.2.1 ≤ (x : Int) ∧ (x : Int) < b.2.2 := by
  have hm : x ∈ (List.range Config.panelWidth).filter (fun x : Nat => (boxes.filter fun b => n.covers b.1 && b.2.1 < b.2.2).any
      fun b => b.2.1 ≤ (x : Int) && (x : Int) < b.2.2) ↔ ∃ b ∈ boxes, n.covers b.1 = true ∧ b.2.1 ≤ (x : Int) ∧ (x : Int) < b.2.2 := by
    simp only [List.mem_filter, List.mem_range, hx, true_and, List.any_eq_true, Bool.and_eq_true, decide_eq_true_eq]
    constructor
    · rintro ⟨b, ⟨hb, hc, -⟩, h1, h2⟩; exact ⟨b, hb, hc, h1, h2⟩
    · rintro ⟨b, hb, hc, h1, h2⟩; exact ⟨b, ⟨hb, hc, by omega⟩, h1, h2⟩
  unfold markedColumns
  simp only
  split
  · next he =>
    rw [← hm, List.isEmpty_iff.1 he]; simp
  · exact hm

/-- R142. -/
theorem drawShade_get (s : State) (l : Line) (boxes : List (Nat × Int × Int)) {px : Pixels} (h : px.wf) (n : Note) {x y : Nat}
    (hx : x < Config.panelWidth) :
    (drawShade s l boxes px n).get (pixelAddr x y) =
      if n.style = .shade ∧ x ∈ markedColumns n boxes ∧ l.bandLo ≤ y ∧ y < l.bandHi
      then shadeLevel s.params.shadeFloor n.tone (px.get (pixelAddr x y)) else px.get (pixelAddr x y) := by
  unfold drawShade
  split
  · next hs =>
    rw [Pixels.get_modifyAll_addrsOf h _ (markedColumns_nodup n boxes) (markedColumns_lt n boxes) l.bandHi_le hx]
    simp only [hs, true_and]
  · next hs => simp only [hs, false_and, if_false]

/-- R145: one row. -/
theorem drawUnderlineRow_get (l : Line) {columns : List Nat} (hn : columns.Nodup) (hc : ∀ x ∈ columns, x < Config.panelWidth) (r : Nat)
    {px : Pixels} (h : px.wf) {x y : Nat} (hx : x < Config.panelWidth) :
    (drawUnderlineRow l columns r px).get (pixelAddr x y) =
      if x ∈ columns ∧ y = r ∧ l.bandLo ≤ y ∧ y < l.bandHi then underlineLevel (px.get (pixelAddr x y)) else px.get (pixelAddr x y) := by
  unfold drawUnderlineRow
  split
  · next hb =>
    simp only [Bool.and_eq_true, decide_eq_true_eq] at hb
    rw [Pixels.get_modifyAll_addrsOf h _ hn hc (Nat.le_trans hb.2 l.bandHi_le) hx]
    refine if_congr ⟨fun ⟨h1, h2, h3⟩ => ⟨h1, by omega, by omega, by omega⟩, fun ⟨h1, h2, h3, h4⟩ => ⟨h1, by omega, by omega⟩⟩ rfl rfl
  · next hb =>
    simp only [Bool.and_eq_true, decide_eq_true_eq] at hb
    rw [if_neg]
    rintro ⟨-, rfl, h⟩; exact hb h

/-- The rows that a note underlines. -/
def underlineRows (l : Line) (n : Note) : List Nat :=
  match n.style with
  | .underline => [l.baseline + 2, l.baseline + 3]
  | .doubleUnderline => [l.baseline + 2, l.baseline + 5]
  | .shade => []
  | .marginBar => []

/-- R145. -/
theorem drawUnderline_get (l : Line) (boxes : List (Nat × Int × Int)) {px : Pixels} (h : px.wf) (n : Note) {x y : Nat}
    (hx : x < Config.panelWidth) :
    (drawUnderline l boxes px n).get (pixelAddr x y) =
      if y ∈ underlineRows l n ∧ x ∈ markedColumns n boxes ∧ l.bandLo ≤ y ∧ y < l.bandHi
      then underlineLevel (px.get (pixelAddr x y)) else px.get (pixelAddr x y) := by
  have hn := markedColumns_nodup n boxes
  have hc := markedColumns_lt n boxes
  have two (a b : Nat) (hab : a ≠ b) :
      (drawUnderlineRow l (markedColumns n boxes) b (drawUnderlineRow l (markedColumns n boxes) a px)).get (pixelAddr x y) =
        if y ∈ [a, b] ∧ x ∈ markedColumns n boxes ∧ l.bandLo ≤ y ∧ y < l.bandHi
        then underlineLevel (px.get (pixelAddr x y)) else px.get (pixelAddr x y) := by
    rw [drawUnderlineRow_get l hn hc _ (drawUnderlineRow_wf l hc _ h) hx, drawUnderlineRow_get l hn hc _ h hx]
    simp only [List.mem_cons, List.not_mem_nil, or_false]
    by_cases h1 : y = a
    · subst h1; simp [hab]
    · by_cases h2 : y = b
      · subst h2; simp [h1]
      · simp [h1, h2]
  unfold drawUnderline underlineRows
  cases n.style <;> simp only
  · simp
  · exact two _ _ (by omega)
  · exact two _ _ (by omega)
  · simp

/-- R146. -/
theorem drawBar_get (page : Page) (hp : page.frame.left ≤ Config.maxSideMargins) (l : Line) {px : Pixels} (h : px.wf) (n : Note) {x y : Nat}
    (hx : x < Config.panelWidth) :
    (drawBar page l px n).get (pixelAddr x y) =
      if (n.style = .marginBar ∧ n.coversLine l = true) ∧ x ∈ barColumns page.frame.left ∧ l.bandLo ≤ y ∧ y < l.bandHi
      then 0 else px.get (pixelAddr x y) := by
  have hn : (barColumns page.frame.left).Nodup := by
    unfold barColumns; split <;> (simp; try omega)
  have hc : ∀ x ∈ barColumns page.frame.left, x < Config.panelWidth := by
    intro x hx
    simp only [Config.maxSideMargins] at hp
    simp only [barColumns] at hx
    split at hx <;> simp only [List.mem_cons, List.not_mem_nil, or_false] at hx <;> simp only [Config.panelWidth] <;> omega
  unfold drawBar
  simp only [Bool.and_eq_true, decide_eq_true_eq]
  split
  · next hs =>
    rw [Pixels.get_modifyAll_addrsOf h _ hn hc l.bandHi_le hx]
    simp only [hs, true_and, and_true]
  · next hs => rw [if_neg fun g => hs g.1]

/-- R143 and R144: a bitmap from its position `i` on changes the pixel under which one of its positions lies, and only once. -/
theorem drawCoverage_get (x0 y0 : Int) {width : Nat} (hw : 0 < width) (lo hi : Nat) (hh : hi ≤ Config.panelHeight) (cs : List Level) (i : Nat)
    {px : Pixels} (h : px.wf) {x y : Nat} (hx : x < Config.panelWidth) (hlo : lo ≤ y) (hhi : y < hi) :
    (drawCoverage x0 y0 width lo hi i cs px).get (pixelAddr x y) =
      if x0 ≤ x ∧ (x : Int) < x0 + width ∧ y0 ≤ y ∧ i ≤ ((y : Int) - y0).toNat * width + ((x : Int) - x0).toNat then
        inkLevel (cs.getD (((y : Int) - y0).toNat * width + ((x : Int) - x0).toNat - i) 0) (px.get (pixelAddr x y))
      else px.get (pixelAddr x y) := by
  have ink0 (v : Level) : inkLevel 0 v = v := by simp [inkLevel]
  induction cs generalizing px i with
  | nil => unfold drawCoverage; simp [ink0]
  | cons c t ih =>
    unfold drawCoverage
    simp only
    generalize hpx' : (if 0 ≤ x0 + ((i % width : Nat) : Int) && x0 + ((i % width : Nat) : Int) < (Config.panelWidth : Int) &&
        (lo : Int) ≤ y0 + ((i / width : Nat) : Int) && y0 + ((i / width : Nat) : Int) < (hi : Int) then
      px.modify (pixelAddr (x0 + ((i % width : Nat) : Int)).toNat (y0 + ((i / width : Nat) : Int)).toNat) (inkLevel c) else px) = px'
    have hwf : px'.wf := by
      rw [← hpx']
      split
      · next hc =>
        simp only [Bool.and_eq_true, decide_eq_true_eq] at hc
        refine Pixels.modify_wf h (pixelAddr_lt ?_ ?_) _ <;> omega
      · exact h
    rw [ih (i + 1) hwf]
    have hget : px'.get (pixelAddr x y) =
        if (x : Int) = x0 + ((i % width : Nat) : Int) ∧ (y : Int) = y0 + ((i / width : Nat) : Int) then inkLevel c (px.get (pixelAddr x y))
        else px.get (pixelAddr x y) := by
      rw [← hpx']
      split
      · next hc =>
        simp only [Bool.and_eq_true, decide_eq_true_eq] at hc
        rw [Pixels.get_modify h]
        refine if_congr ?_ rfl rfl
        rw [pixelAddr_inj hx (by omega)]; omega
      · next hc =>
        simp only [Bool.and_eq_true, decide_eq_true_eq] at hc
        rw [if_neg]
        rintro ⟨h1, h2⟩; exact hc (by simp only [Config.panelWidth] at *; omega)
    rw [hget]
    have hdm := Nat.div_add_mod i width
    have hml := Nat.mod_lt i hw
    by_cases hin : x0 ≤ x ∧ (x : Int) < x0 + width ∧ y0 ≤ y
    · obtain ⟨h1, h2, h3⟩ := hin
      obtain ⟨k, hk⟩ := Int.eq_ofNat_of_zero_le (show 0 ≤ (x : Int) - x0 by omega)
      obtain ⟨r, hr⟩ := Int.eq_ofNat_of_zero_le (show 0 ≤ (y : Int) - y0 by omega)
      have hkw : k < width := by omega
      simp only [hk, hr, Int.toNat_natCast, h1, h2, h3, true_and]
      have hiff : ((x : Int) = x0 + ((i % width : Nat) : Int) ∧ (y : Int) = y0 + ((i / width : Nat) : Int)) ↔ i = r * width + k := by
        constructor
        · rintro ⟨ha, hb⟩
          have : k = i % width := by omega
          have : r = i / width := by omega
          subst_vars; rw [Nat.mul_comm]; exact hdm.symm
        · rintro rfl
          rw [Nat.add_comm, Nat.add_mul_mod_self_right, Nat.mod_eq_of_lt hkw, Nat.add_mul_div_right _ _ hw, Nat.div_eq_of_lt hkw]
          omega
      simp only [hiff]
      by_cases he : i = r * width + k
      · rw [if_neg (by omega), if_pos he, if_pos (by omega), he]; simp
      · by_cases hl : i + 1 ≤ r * width + k
        · rw [if_pos hl, if_neg he, if_pos (by omega)]
          obtain ⟨m, hm⟩ := Nat.exists_eq_add_of_le hl
          rw [show r * width + k - (i + 1) = m by omega, show r * width + k - i = m + 1 by omega, List.getD_cons_succ]
        · rw [if_neg hl, if_neg he, if_neg (by omega)]
    · have hq := Int.natCast_nonneg (i / width)
      have e : ¬ ((x : Int) = x0 + ((i % width : Nat) : Int) ∧ (y : Int) = y0 + ((i / width : Nat) : Int)) :=
        fun ⟨h1, h2⟩ => hin ⟨by omega, by omega, by omega⟩
      have out (b : Prop) : ¬ (x0 ≤ x ∧ (x : Int) < x0 + width ∧ y0 ≤ y ∧ b) := fun g => hin ⟨g.1, g.2.1, g.2.2.1⟩
      simp only [e, out, if_false]

/-- A fold of steps, each of which keeps the form and acts on the pixel at `a` as `g` does, acts on that pixel one step after another. -/
theorem foldl_get {α : Type} {f : Pixels → α → Pixels} {g : Level → α → Level} {a : Nat} (hwf : ∀ px : Pixels, px.wf → ∀ x, (f px x).wf)
    (hget : ∀ px : Pixels, px.wf → ∀ x, (f px x).get a = g (px.get a) x) (l : List α) {px : Pixels} (h : px.wf) :
    (l.foldl f px).get a = l.foldl g (px.get a) := by
  induction l generalizing px with
  | nil => rfl
  | cons x t ih => rw [List.foldl_cons, List.foldl_cons, ih (hwf px h x), hget px h]

end Sys2Proof.Machine
end

