-- ==== Sys2Proof/Laws/Ops.lean ====
section
/-! SUPPORT. What the shared operations over lists, vectors, planes, faces and tables do, each said once. -/

namespace Sys2Proof.Machine

open Sys2Proof

/-! ### Lists and vectors -/

theorem mem_insertNat {x y : Nat} {l : List Nat} : y ∈ insertNat x l ↔ y = x ∨ y ∈ l := by
  induction l with
  | nil => simp [insertNat]
  | cons z t ih =>
    unfold insertNat
    split
    · simp
    · split
      · next h => subst h; simp
      · simp only [List.mem_cons, ih]; tauto

/-- A rising list stays one. -/
theorem insertNat_sorted {x : Nat} {l : List Nat} (h : l.Pairwise (· < ·)) : (insertNat x l).Pairwise (· < ·) := by
  induction l with
  | nil => simp [insertNat]
  | cons z t ih =>
    have ht := List.pairwise_cons.1 h
    unfold insertNat
    split
    · next hx =>
      refine List.pairwise_cons.2 ⟨fun y hy => ?_, h⟩
      rcases List.mem_cons.1 hy with rfl | hy
      · exact hx
      · exact Nat.lt_trans hx (ht.1 y hy)
    · split
      · exact h
      · refine List.pairwise_cons.2 ⟨fun y hy => ?_, ih ht.2⟩
        rcases mem_insertNat.1 hy with rfl | hy
        · omega
        · exact ht.1 y hy

theorem getElem?_mapFrom {α : Type} (f : Nat → α → α) (i k : Nat) (l : List α) : (mapFrom f i l)[k]? = l[k]?.map (f (i + k)) := by
  induction l generalizing i k with
  | nil => simp [mapFrom]
  | cons x t ih => cases k with
    | zero => simp [mapFrom]
    | succ k => simp [mapFrom, ih]; congr 2; omega

/-- A member of a mapped vector is the image of its position and the member there. -/
theorem getElem_mapVector {α : Type} {n : Nat} (f : Nat → α → α) (v : Vector α n) (k : Nat) (h : k < n) : (mapVector f v)[k] = f k v[k] := by
  have h1 : (mapVector f v)[k]? = (mapFrom f 0 v.toList)[k]? := by simp [mapVector]
  rw [getElem?_mapFrom] at h1
  simpa [h] using h1

theorem mem_positionsFrom {α : Type} (p : α → Bool) (i k : Nat) (l : List α) :
    k ∈ positionsFrom p i l ↔ i ≤ k ∧ ∃ x, l[k - i]? = some x ∧ p x = true := by
  induction l generalizing i with
  | nil => simp [positionsFrom]
  | cons x t ih =>
    have step : k ∈ positionsFrom p (i + 1) t ↔ i < k ∧ ∃ y, (x :: t)[k - i]? = some y ∧ p y = true := by
      rw [ih]
      constructor
      · rintro ⟨h1, y, h2, h3⟩
        refine ⟨h1, y, ?_, h3⟩
        rw [show k - i = (k - (i + 1)) + 1 by omega]; simpa using h2
      · rintro ⟨h1, y, h2, h3⟩
        refine ⟨h1, y, ?_, h3⟩
        rw [show k - i = (k - (i + 1)) + 1 by omega] at h2; simpa using h2
    unfold positionsFrom
    split
    · next hp =>
      rw [List.mem_cons, step]
      constructor
      · rintro (rfl | ⟨h1, h2⟩)
        · exact ⟨Nat.le_refl _, x, by simp, hp⟩
        · exact ⟨Nat.le_of_lt h1, h2⟩
      · rintro ⟨h1, h2⟩
        rcases Nat.lt_or_ge i k with h | h
        · exact .inr ⟨h, h2⟩
        · exact .inl (by omega)
    · next hp =>
      rw [step]
      constructor
      · rintro ⟨h1, h2⟩; exact ⟨Nat.le_of_lt h1, h2⟩
      · rintro ⟨h1, y, h2, h3⟩
        rcases Nat.lt_or_ge i k with h | h
        · exact ⟨h, y, h2, h3⟩
        · rw [show k - i = 0 by omega] at h2
          simp only [List.getElem?_cons_zero, Option.some.injEq] at h2
          exact absurd (h2 ▸ h3) hp

theorem removeAt_eq_eraseIdx {α : Type} (n : Nat) (l : List α) : removeAt n l = l.eraseIdx n := by
  induction l generalizing n with
  | nil => cases n <;> rfl
  | cons x t ih => cases n with
    | zero => rfl
    | succ n => simp [removeAt, ih]

theorem getElem?_modifyAt {α : Type} (f : α → α) (n k : Nat) (l : List α) :
    (modifyAt f n l)[k]? = if k = n then l[k]?.map f else l[k]? := by
  induction l generalizing n k with
  | nil => cases n <;> simp [modifyAt]
  | cons x t ih => cases n with
    | zero => cases k <;> simp [modifyAt]
    | succ n => cases k with
      | zero => simp [modifyAt]
      | succ k => simp [modifyAt, ih]

/-! ### Fields of a record -/

/-- The 16-bit signed number that two bytes spell. -/
theorem signed_u16 (r : Record) (i : Nat) : signed 32768 (r.u16 i) = ((r.byte (i + 1) ++ r.byte i : BitVec 16)).toInt := by
  have h1 : (r.byte (i + 1) ++ r.byte i : BitVec 16).toNat = r.u16 i := by
    rw [BitVec.toNat_append]
    have := (r.byte i).isLt
    rw [Nat.shiftLeft_eq, Nat.mul_comm, ← Nat.two_pow_add_eq_or_of_lt this]; simp [Record.u16, Record.u8]; omega
  rw [BitVec.toInt_eq_toNat_cond, h1, signed]
  split <;> split <;> first | rfl | omega

/-! ### Faces and tables -/

theorem setFace_eq (t : FaceTable) (h : Nat) (f : Option Face) : t.setFace h f = { t with entries := t.entries.setIfInBounds h f } := by
  unfold FaceTable.setFace
  split
  · next hh => simp [Vector.setIfInBounds, Vector.set, Array.setIfInBounds, hh]
  · rw [Vector.setIfInBounds_eq_of_size_le]; omega

theorem setTable_eq (s : State) (id : Nat) (t : GlyphTable) : s.setTable id t = s.setGlyphs (s.glyphs.setIfInBounds id t) := by
  unfold State.setTable
  split
  · next hh => simp [Vector.setIfInBounds, Vector.set, Array.setIfInBounds, hh]
  · rw [Vector.setIfInBounds_eq_of_size_le]
    · rfl
    · omega

/-- R22: handle 0 has no use. -/
theorem useCount_zero (s : State) : useCount s 0 = 0 := rfl

/-! ### Planes -/

variable (p : Planes) (i j : PlaneId)

@[simp] theorem PlaneId.other_other : i.other.other = i := by cases i <;> rfl
theorem PlaneId.other_ne : i.other ≠ i := by cases i <;> decide
theorem PlaneId.eq_or_other : j = i ∨ j = i.other := by cases i <;> cases j <;> simp [PlaneId.other]

@[simp] theorem Planes.get_set (x : Plane) : (p.set i x).get i = x := by cases i <;> rfl
@[simp] theorem Planes.get_set_other (x : Plane) : (p.set i x).get i.other = p.get i.other := by cases i <;> rfl
@[simp] theorem Planes.set_showPending (x : Plane) : (p.set i x).showPending = p.showPending := by cases i <;> rfl
@[simp] theorem Planes.set_showing (x : Plane) : (p.set i x).showing = p.showing := by cases i <;> rfl

/-- A plane that is found plays the part. -/
theorem Planes.part_of_find {part : Part} (h : p.find part = some i) : (p.get i).part = some part := by
  unfold Planes.find at h
  split at h
  · next ha => cases h; exact ha
  · split at h
    · next hb => cases h; exact hb
    · cases h

/-- No plane is found exactly when none plays the part. -/
theorem Planes.find_eq_none {part : Part} : p.find part = none ↔ ∀ i, (p.get i).part ≠ some part := by
  unfold Planes.find
  constructor
  · intro h i
    split at h
    · cases h
    · next ha =>
      split at h
      · cases h
      · next hb => cases i <;> assumption
  · intro h
    rw [if_neg (show p.a.part ≠ some part from h .a), if_neg (show p.b.part ≠ some part from h .b)]

/-- A page that is found stands on a plane that plays the part. -/
theorem Planes.pageOf_eq_some {part : Part} {page : Page} (h : p.pageOf part = some (i, page)) :
    p.find part = some i ∧ (p.get i).held = some { part := part, page := page } := by
  unfold Planes.pageOf at h
  split at h
  · cases h
  · next k hk =>
    rcases e : (p.get k).held with _ | x
    · simp [e] at h
    · simp only [e, Option.map_some, Option.some.injEq, Prod.mk.injEq] at h
      obtain ⟨rfl, rfl⟩ := h
      have := Planes.part_of_find p k hk
      simp only [Plane.part, e, Option.map_some, Option.some.injEq] at this
      exact ⟨hk, by rw [e, ← this]⟩

/-- R98: what availability asks of both planes. -/
theorem Planes.availableAt_iff : p.availableAt i = true ↔
    (p.get i).part = none ∧ (p.get i.other).part ≠ some .composing ∧ (p.get i.other).part ≠ some .ready := by
  simp [Planes.availableAt, and_assoc]

end Sys2Proof.Machine
end

