-- ==== Sys2Proof/Laws/Raster.lean ====
section
/-! SUPPORT. Drawing reads the faces, the glyph tables and the shade floor of a state, and nothing else of it. -/

namespace Sys2Proof.Machine

open Sys2Proof

variable {s t : State}

theorem glyphOf_congr (hf : t.faces = s.faces) (hg : t.glyphs = s.glyphs) (face code : Nat) : t.glyphOf face code = s.glyphOf face code := by
  simp only [State.glyphOf, State.tableAt, hf, hg]

theorem lastAdvance_congr (hf : t.faces = s.faces) (hg : t.glyphs = s.glyphs) (p : Placement) : lastAdvance t p = lastAdvance s p := by
  simp only [lastAdvance, glyphOf_congr hf hg, hf]

theorem entryBoxes_congr (hf : t.faces = s.faces) (hg : t.glyphs = s.glyphs) (l : List (Placement × Bool)) : entryBoxes t l = entryBoxes s l := by
  induction l with
  | nil => rfl
  | cons x l ih =>
    cases l with
    | nil => simp only [entryBoxes, lastAdvance_congr hf hg]
    | cons y l => simp only [entryBoxes, ih]

/-- Two states with the same faces, glyph tables and shade floor draw the same. -/
theorem drawLine_congr (hf : t.faces = s.faces) (hg : t.glyphs = s.glyphs) (hp : t.params = s.params) (page : Page) (px : Pixels) (l : Line) :
    drawLine t page px l = drawLine s page px l := by
  have h1 : drawShade t = drawShade s := by
    funext l boxes px n; simp only [drawShade, hp]
  have h2 : drawGlyph t = drawGlyph s := by
    funext l px p; simp only [drawGlyph, glyphOf_congr hf hg]
  simp only [drawLine, h1, h2, entryBoxes_congr hf hg]

end Sys2Proof.Machine
end

