-- ==== Sys2Proof/Laws/Taking.lean ====
section
/-! SUPPORT. What a step of the Composer or of the Command Unit does with a record or command that stands at hand. -/

namespace Sys2Proof.Machine

open Sys2Proof

variable {s : State} {r : Record} {rest : List Record} {kind : Byte}

theorem TakesInPage.takes (h : TakesInPage s r rest) : Takes s r rest :=
  ⟨h.1, by rw [h.2.1]; rfl, h.2.2.1, h.2.2.2⟩

theorem takable_of_takes (h : Takes s r rest) : s.takable = some r := by
  obtain ⟨h1, h2, h3, h4⟩ := h
  simp [State.takable, h1, h2, h3, h4]

theorem headOf_of_takes (h : Takes s r rest) (hk : r.kind = kind) : s.headOf kind = some r := by
  simp [State.headOf, takable_of_takes h, hk]

/-- R54: the three outcomes of a record of an assigned kind that the Composer takes. -/
theorem takeRecord_of_takes (h : Takes s r rest) (hk : r.kind = kind) (lengthOk : Nat → Bool) (content : Bool) (rule : Record → State) :
    takeRecord s kind lengthOk content rule =
      if !lengthOk r.length then (s.raise .recordError).release
      else if content && s.comp.state == .idle then (s.raise .sequenceError).release
      else rule r := by
  simp only [takeRecord, headOf_of_takes h hk]

/-- A record of a suitable length, taken where its kind is not discarded, goes to the rule of its kind. -/
theorem takeRecord_rule (h : Takes s r rest) (hk : r.kind = kind) {lengthOk : Nat → Bool} {content : Bool} {rule : Record → State}
    (hl : lengthOk r.length = true) (hc : content = false ∨ s.comp.state ≠ .idle) :
    takeRecord s kind lengthOk content rule = rule r := by
  rw [takeRecord_of_takes h hk]
  rcases hc with hc | hc <;> simp [hl, hc]

theorem takeRecord_inPage (h : TakesInPage s r rest) (hk : r.kind = kind) {lengthOk : Nat → Bool} {content : Bool} {rule : Record → State}
    (hl : lengthOk r.length = true) : takeRecord s kind lengthOk content rule = rule r :=
  takeRecord_rule h.takes hk hl (.inr (by rw [h.2.1]; decide))

/-- A turn of the Composer that finds no record of its kind changes nothing. -/
theorem takeRecord_none (h : s.headOf kind = none) (lengthOk : Nat → Bool) (content : Bool) (rule : Record → State) :
    takeRecord s kind lengthOk content rule = s := by
  simp only [takeRecord, h]

/-- While the Composer is held it takes no record. -/
theorem takable_eq_none (h : s.cmd.streamHold ≠ 0 ∨ s.comp.state.waiting = true) : s.takable = none := by
  rcases h with h | h <;> simp [State.takable, h]

theorem headOf_eq_none (h : s.cmd.streamHold ≠ 0 ∨ s.comp.state.waiting = true) : s.headOf kind = none := by
  simp [State.headOf, takable_eq_none h]

theorem release_of_ring (h : s.ring = r :: rest) : s.release = s.setRing rest := by
  simp [State.release, h]

theorem commandOf_of_commands (h : Commands s r rest) (hk : r.kind = kind) : s.commandOf kind = some r := by
  obtain ⟨h1, h2⟩ := h
  simp [State.commandOf, h1, h2, hk]

theorem dequeue_of_commands (h : Commands s r rest) : s.dequeue = s.setCmd { s.cmd with queued := rest } := by
  simp [State.dequeue, h.1]

/-- R9: the Command Unit takes the oldest command, which leaves the queue. -/
theorem execute_of_commands (h : Commands s r rest) (hk : r.kind = kind) (rule : Record → State → State) :
    s.execute kind rule = rule r (s.setCmd { s.cmd with queued := rest }) := by
  simp only [State.execute, commandOf_of_commands h hk, dequeue_of_commands h]

/-- R133: any command but a paint or erase finds the hold set released. -/
theorem executeReleasing_of_commands (h : Commands s r rest) (hk : r.kind = kind) (rule : Record → State → State) :
    s.executeReleasing kind rule = rule r (takenFrom s rest) := by
  simp only [State.executeReleasing, execute_of_commands h hk]; rfl

end Sys2Proof.Machine
end

