-- ==== Sys2Proof/Tests/Slice0.lean ====
section
/-! SUPPORT. Tests of single steps on small states, each with the value that the manual gives, and for every obligation that has hypotheses a witness that
they can be met. -/

namespace Sys2Proof.Tests

open Sys2Proof Sys2Proof.Machine

set_option maxRecDepth 100000
set_option Elab.async false

/-! ### Small states -/

/-- The next state of a step, if it answers one. -/
def after (c : Instr) (s : State) : Option State :=
  match exec c s with
  | .next t => some t
  | .fault _ => none
  | .refused _ => none

/-- A value read off the next state. -/
def read {α : Type} (c : Instr) (s : State) (f : State → α) : Option α := (after c s).map f

/-- A record with tag 0x55. -/
def rec55 (kind : Byte) (body : List Byte) : Record := ⟨kind, 0x55, body⟩

/-- The record stands alone in the ring. -/
def atHead (s : State) (kind : Byte) (body : List Byte) : State := { s with ring := [rec55 kind body] }

/-- The command stands alone in the queue. -/
def queued (s : State) (kind : Byte) (body : List Byte) : State := { s with cmd := { s.cmd with queued := [rec55 kind body] } }

/-- A glyph without pixels. -/
def blank (code advance kernClass : Nat) : Glyph :=
  { code, advance, bearing := 0, top := 0, width := 0, height := 0, kernClass, coverage := [] }

/-- A READY table with a hyphen of 640 su and an n of 2,000 su, and an adjustment of -100 su between two n. -/
def tableN : GlyphTable :=
  { state := .ready, budget := 100, fill := 24, glyphs := [blank 0x2D 640 0, blank 0x6E 2000 1],
    kern := (List.replicate 256 0).set 17 (-100) }

def faceN : Face :=
  { table := 0, firstCode := 0x20, lastCode := 0x7E, replacement := 0x6E, hyphen := 0x2D, space := 1600, ascent := 38, descent := 10, gap := 8 }

/-- Face 3 present, table 0 READY. -/
def faced : State :=
  { State.reset with
    faces := { FaceTable.reset with entries := (Vector.replicate 32 none).set 3 (some faceN), current := 3 }
    glyphs := (Vector.replicate 16 GlyphTable.empty).set 0 tableN }

/-- A table being loaded, with room for one glyph of cost 18. -/
def loading : State := { State.reset with
  glyphs := (Vector.replicate 16 GlyphTable.empty).set 2 { GlyphTable.empty with state := .loading, budget := 18 } }

/-- A page frame whose measure is 25,600 su, as the worked cases of 5.4 have it. -/
def frame400 : Frame := { left := 640, right := 640, top := 100, bottom := 100, clamped := false }

def freshPage : Page :=
  { number := 41, frame := frame400, glyphCount := 0, overflowed := false, continuation := false, lines := [], placements := [], notes := [],
    faceSet := [] }

/-- Plane A is COMPOSING an empty page. -/
def opened : State :=
  { faced with comp := { Composer.reset with state := .composing }
               planes := { Planes.reset with a := { held := some ⟨.composing, freshPage⟩, pixels := [] } } }

/-- An entry of n in face 3. -/
def entryN (ordinal : Nat) : Entry :=
  { code := 0x6E, subst := 0x6E, cls := 0, face := 3, shift := 0, ordinal, advance := 2000, kernClass := some 1, kern := none }

/-- A justified paragraph holds one entry in the line buffer. -/
def typed : State :=
  { opened with
    comp := { opened.comp with buffer := [entryN 0], nextOrdinal := 1, para := some { alignment := .justify, indent := 0, spaceBefore := 0, firstDone := false } }
    planes := { opened.planes with a := { held := some ⟨.composing, { freshPage with glyphCount := 1, faceSet := [3] }⟩, pixels := [] } } }

/-- A line of one entry. -/
def lineN : Line :=
  { first := 0, count := 1, baseline := 138, ascent := 38, descent := 10, gap := 8, offset := 0,
    flags := { justified := false, loose := false, forced := false, overwide := false, hyphenated := false, paraFirst := true, paraLast := true,
               overtall := false } }

def noteSeven : Note :=
  { id := 7, style := .underline, tone := 0, start := 0, stop := some 0, continued := false, closedByPage := false, live := true }

/-- A closed page of one ordinal, with note 7 on it. -/
def shownPage : Page :=
  { freshPage with glyphCount := 1, lines := [lineN], faceSet := [3], notes := [noteSeven]
                   placements := [{ ordinal := 0, code := 0x6E, face := 3, x := 640, cls := 0, shift := 0, drawn := true }] }

/-- That page on plane A, READY. -/
def readied : State := { faced with planes := { Planes.reset with a := { held := some ⟨.ready, shownPage⟩, pixels := [] } } }

/-- That page on plane A, SHOWN, with its note list empty or not. -/
def shown : State := { faced with planes := { Planes.reset with a := { held := some ⟨.shown, shownPage⟩, pixels := [] } } }

/-- Page 41 is SHOWN on plane A with tile 300 held, and plane B is READY; every lane is IDLE and every tile at residue 20. -/
def held : State :=
  { shown with planes := { shown.planes with b := { held := some ⟨.ready, shownPage⟩, pixels := [] } }
               notes := { shown.notes with tiles := [300], chain := 1 }
               planner := { shown.planner with tiles := Vector.replicate 1200 { residue := 20, coarse := false } } }

/-- The rectangle of 9.5's first update. -/
def rect9 : Rect := { c0 := 0, r0 := 9, c1 := 29, r1 := 11 }

def fastUpdate : Update :=
  { source := .flip, mode := .fast, rect := rect9, plane := .a, threshold := 8, limit := 37, started := 10000 }

/-- 10.6: lane 0 is SENDING a FAST update, sequence number 14. -/
def sending : State :=
  { shown with tick := 10020
               lanes := { LaneController.reset with
                 lane := (Vector.replicate 4 Lane.reset).set 0 { state := .sending, seq := 14, update := some fastUpdate, elapsed := 0 }
                 order := [0], tx := some 0 } }

/-- 10.6: the same lane WAITING, at tick 10,300, its completion frame received but for the result. -/
def waiting : State :=
  { shown with tick := 10300
               planes := { shown.planes with showPending := true, showing := [0] }
               lanes := { LaneController.reset with
                 lane := (Vector.replicate 4 Lane.reset).set 0 { state := .waiting, seq := 14, update := some fastUpdate, elapsed := 592 }
                 rx := some [0, 14] } }

/-- A transfer in progress, with this framing. -/
def framed (f : Framing) : State := { State.reset with link := { Link.reset with select := .transfer, framing := f } }

/-- A page waits for a plane that has just become FREE. -/
def waitingPage : State :=
  { faced with ring := [rec55 1 (List.replicate 12 0)], comp := { Composer.reset with state := .waitPlane (.opening 0 frame400) } }

/-! ### What cannot occur, and the words that spell no command -/

theorem test_wf_partial_bits : (Instr.transferEnd 8).wellFormed = false ∧ (Instr.transferEnd 7).wellFormed = true := by decide
theorem test_wf_lane : (Instr.laneTimeout 4).wellFormed = false ∧ (Instr.laneTimeout 3).wellFormed = true := by decide
theorem test_ill_formed_faults : exec (.laneTimeout 4) State.reset = .fault .illFormed ∧ exec (.transferEnd 8) State.reset = .fault .illFormed :=
  ⟨rfl, rfl⟩
theorem test_no_word_spells : decodeTableWord 8 0x47 = none ∧ State.reset.withFetchWord 8 0x47 = State.reset := ⟨rfl, rfl⟩
theorem test_idle_step : step State.reset = .next State.reset := rfl

/-! ### Chapter 1 -/

/-- R14 after R16: 32,768 bytes and four slots free, INTAKE_EMPTY alone true. -/
theorem test_transferBegin_digest : read .transferBegin State.reset (·.link.outbound) =
    some [0, 0x80, 4, 0, 0, 0, 0, 1, 0, 0, 0, 0, 0, 0, 0, 0] := by decide +kernel
/-- 1.6, worked sequence: the STREAM_RESET's header empties the ring and holds the stream. -/
theorem test_recordHeader_streamReset : read (.recordHeader 0) { framed (.header [0x47, 0x31, 4]) with ring := [rec55 5 [1, 2, 3]] }
    (fun t => (fill t, t.cmd.streamHold, t.cmd.queued)) = some (0, 1, [⟨0x47, 0x31, []⟩]) := by decide +kernel
/-- 1.6: a PAGE_OPEN's header reserves its 16 bytes. -/
theorem test_recordHeader_reserves : read (.recordHeader 0) (framed (.header [1, 0x32, 16])) freeBytes = some 32752 := by decide +kernel
theorem test_inboundByte_pad : read (.inboundByte 0) (framed .between) (·.link.framing) = some .between := by decide +kernel
theorem test_inboundByte_header : read (.inboundByte 5) (framed .between) (·.link.framing) = some (.header [5]) := by decide +kernel
theorem test_streamRecordEntry_whole : read (.streamRecordEntry 9) (framed (.bodyStream 6 0x61 5 [])) (fun t => (t.ring, t.link.framing)) =
    some ([⟨6, 0x61, [9]⟩], .between) := by decide +kernel
theorem test_commandWhole_queues : read (.commandWhole 2) (framed (.bodyCommand 0x45 0 6 [1])) (·.cmd.queued) = some [⟨0x45, 0, [1, 2]⟩] := by
  decide +kernel
/-- R6: select rising inside a header discards it with FRAMING_ERROR (bit 10). -/
theorem test_transferEnd_framing : read (.transferEnd 3) (framed (.header [5, 1])) (fun t => (t.events.flags, t.link.select)) =
    some (0x400, .high) := by decide +kernel
theorem test_powerOn_forgets : read .powerOnReset waiting (fun t => (t.tick, t.planes.a.held, t.lanes.rx, t.params.limitFull)) =
    some (0, none, none, 125) := by decide +kernel

/-! ### Chapters 2 and 3 -/

/-- 11.7: FACE_SELECT of the absent entry 9 keeps its detail. -/
theorem test_faceSelect_absent : read .faceSelect { opened with ring := [⟨6, 0x61, [9]⟩] } (fun t => (t.events.face, t.ring)) =
    some (some ⟨.absent, 6, 0x61, 9, 0, false⟩, []) := by decide +kernel
theorem test_faceSelect_null : read .faceSelect (atHead opened 6 [0]) (·.faces.current) = some 0 := by decide +kernel
/-- 11.7: FACE_UNLOAD of handle 40. -/
theorem test_faceUnload_range : read .faceUnload (atHead faced 0x11 [40]) (fun t => t.events.face.map (·.reason)) = some (some .range) := by
  decide +kernel
theorem test_faceUnload_in_use : read .faceUnload (atHead faced 0x11 [3]) (fun t => t.events.face.map (·.reason)) = some (some .inUse) := by
  decide +kernel
theorem test_faceLoad_present : read .faceLoad (atHead faced 0x10 [4, 0, 0x20, 0, 0x7E, 0, 0x6E, 0, 0x2D, 0, 0x40, 6, 38, 10, 8])
    (fun t => t.faces.face 4) = some (some faceN) := by decide +kernel
theorem test_stylePush_keeps : read .stylePush (atHead opened 7 []) (·.faces.stack) = some [(3, 0)] := by decide +kernel
/-- R29: a pop of an empty stack sets the sticky flags and STYLE_STACK_ERROR (bit 8). -/
theorem test_stylePop_underflow : read .stylePop (atHead opened 8 []) (fun t => (t.faces.underflow, t.events.flags)) = some (true, 0x100) := by
  decide +kernel
/-- R31: -65 is clamped to -64, with PARAM_CLAMPED (bit 15). -/
theorem test_baselineShift_clamp : read .baselineShift (atHead opened 9 [0xBF, 0xFF]) (fun t => (t.faces.shift, t.events.flags)) =
    some (-64, 0x8000) := by decide +kernel
theorem test_tableBegin_loading : read .tableBegin (atHead State.reset 0x12 ([2, 18, 0, 0, 0] ++ List.replicate 512 0))
    (fun t => t.glyphs[2].state) = some .loading := by decide +kernel
/-- 3.2: a kern value of -513 is clamped to -512. -/
theorem test_tableBegin_clamp : read .tableBegin (atHead State.reset 0x12 ([2, 18, 0, 0, 0, 0xFF, 0xFD] ++ List.replicate 510 0))
    (fun t => (t.glyphs[2].kernAt 0 0, t.events.flags)) = some (-512, 0x8000) := by decide +kernel
theorem test_glyphDefine_adds : read .glyphDefine (atHead loading 0x13 [2, 0x41, 0, 0xD0, 7, 0xFF, 30, 2, 1, 5, 0x1F])
    (fun t => (t.glyphs[2].fill, t.glyphs[2].glyphs)) =
    some (13, [{ code := 0x41, advance := 2000, bearing := -1, top := 30, width := 2, height := 1, kernClass := 5, coverage := [15, 15] }]) := by
  decide +kernel
theorem test_glyphDefine_bitmap : read .glyphDefine (atHead loading 0x13 [2, 0x41, 0, 0xD0, 7, 0xFF, 30, 3, 1, 5, 0x1F])
    (fun t => (t.glyphs[2].state, t.events.table.map (·.reason))) = some (.faulty, some .bitmap) := by decide +kernel
theorem test_tableEnd_ready : read .tableEnd (atHead loading 0x14 [2]) (fun t => t.glyphs[2].state) = some .ready := by decide +kernel
theorem test_tableDrop_in_use : read .tableDrop (atHead faced 0x15 [0]) (fun t => (t.glyphs[0].state, t.events.table.map (·.reason))) =
    some (.ready, some .inUse) := by decide +kernel

/-! ### Chapters 4 to 6 -/

/-- 6.3: margins of 900, 700, 100 and 100, and of 1,500, 200, 0 and 0. -/
theorem test_frame_clamp : clampFrame 900 700 100 100 = ⟨900, 556, 100, 100, true⟩ ∧ clampFrame 1500 200 0 0 = ⟨1456, 0, 0, 0, true⟩ := by decide
theorem test_pageOpen_plane_a : read .pageOpen (atHead faced 1 [41, 0, 0, 0, 0x84, 3, 0xBC, 2, 100, 0, 100, 0])
    (fun t => (t.planes.a.part, t.planes.a.held.map fun h => (h.page.number, h.page.frame.right), t.comp.state)) =
    some (some .composing, some (41, 556), .composing) := by decide +kernel
theorem test_pageClose_ready : read .pageClose (atHead opened 2 [0]) (fun t => (t.planes.a.part, t.comp.state, t.events.flags)) =
    some (some .ready, .idle, 1) := by decide +kernel
theorem test_paraStart_center : read .paraStart (atHead opened 3 [3, 20, 0, 5]) (·.comp.para) = some (some ⟨.center, 20, 5, false⟩) := by
  decide +kernel
/-- R73: the paragraph's one line is committed at baseline 100 + 38. -/
theorem test_paraEnd_commits : read .paraEnd (atHead typed 4 [])
    (fun t => (t.comp.buffer, t.composingPage.map fun p => p.2.lines.map fun l => (l.baseline, l.flags.paraFirst, l.flags.paraLast))) =
    some ([], some [(138, true, true)]) := by decide +kernel
/-- R51: the second n stands 100 su nearer. -/
theorem test_textRunEntry_kern : read .textRunEntry (atHead typed 5 [0x6E, 0, 0]) (fun t => t.comp.buffer.map (·.kern)) =
    some [none, some (-100)] := by decide +kernel
/-- R27: without a face the run is dropped, with NULL_FACE. -/
theorem test_textRunEntry_null : read .textRunEntry (atHead { opened with faces := FaceTable.reset } 5 [0x6E, 0, 0])
    (fun t => (t.ring, t.events.face.map (·.reason))) = some ([], some .nullFace) := by decide +kernel
theorem test_carryReappend_takes : read .carryReappend { opened with comp := { opened.comp with carry := [entryN 900, entryN 901] } }
    (fun t => (t.comp.buffer.map (·.ordinal), t.comp.carry.length)) = some ([0], 1) := by decide +kernel
theorem test_unassignedRecord_error : read .unassignedRecord (atHead State.reset 0x0C [1]) (fun t => (t.ring, t.events.flags)) =
    some ([], 0x10) := by decide +kernel
/-- 5.4, worked cases: a justified, a shrunk and a loose line. -/
theorem test_spread_worked :
    (List.range 9).map (spreadOf false false .justify 2330 9 2400).share = [259, 259, 259, 259, 259, 259, 259, 259, 258] ∧
    (List.range 9).map (spreadOf false false .left (-1200) 9 2400).share = [-134, -134, -134, -133, -133, -133, -133, -133, -133] ∧
    (List.range 2).map (spreadOf false false .justify 6600 2 1800).share = [1800, 1800] ∧
    (spreadOf false false .justify 6600 2 1800).loose = true := by decide
/-- 5.5: the loose line's end, 22,600 su, in px. -/
theorem test_pixelX_worked : pixelX 640 0 22600 = 993 := by decide

/-! ### Chapters 6 and 7: commands -/

theorem test_pageShow_flips : read .pageShow (queued readied 0x40 [])
    (fun t => (t.planes.a.part, t.lanes.lane[0].update.map fun u => (u.mode, u.rect), t.planes.showing)) =
    some (some .shown, some (.full, wholePanel), [0]) := by decide +kernel
/-- R133: the request of the tiles held is cancelled at once by the flip, so that no lane sends from the old front, which is FREE. R108: the refusal holds the kind
byte in both fields. -/
theorem test_pageShow_cancels_or_refuses :
    read .pageShow (queued held 0x40 []) (fun t => (t.planes.a.part, t.planner.queue.length + t.lanes.order.length, t.lanes.lane[0].update.map fun u => (u.source, u.plane))) =
      some (none, 1, some (.flip, .b)) ∧
    read .pageShow (queued State.reset 0x40 []) (·.events.command) = some (some ⟨.nothingReady, 0x40, 0x55, 0x40, 0, false⟩) :=
  ⟨by decide +kernel, by decide +kernel⟩
theorem test_pageDrop_frees : read .pageDrop (queued readied 0x41 []) (fun t => (t.planes.a.part, t.planes.a.faceSet)) =
    some (none, []) := by decide +kernel
theorem test_noteOpen_opens : read .noteOpen (atHead typed 0x0A [9, 0, 0, 12])
    (fun t => (t.notes.openIds, t.composingPage.map fun p => p.2.notes.map fun n => (n.start, n.tone))) = some ([9], some [(1, 11)]) := by
  decide +kernel
theorem test_noteClose_not_open : read .noteClose (atHead typed 0x0B [9, 0]) (·.events.note) =
    some (some ⟨.notOpen, 0x0B, 0x55, 9, 1, false⟩) := by decide +kernel
/-- R126: the exchange comes before the RANGE check, and its start stands in the detail. -/
theorem test_notePaint_range : read .notePaint (queued shown 0x42 [5, 0, 1, 0, 9, 0, 1, 0]) (·.events.command) =
    some (some ⟨.range, 0x42, 0x55, 5, 1, false⟩) := by decide +kernel
theorem test_notePaint_accepts : read .notePaint (queued shown 0x42 [5, 0, 3, 0, 0, 0, 0, 0])
    (fun t => (t.frontPage.map fun p => p.2.notes.map (·.id), t.notes.chain, t.notes.tiles.length)) = some (some [5, 7], 1, 60) := by
  decide +kernel
theorem test_noteErase_unknown : read .noteErase (queued shown 0x43 [6, 0]) (·.events.command) =
    some (some ⟨.unknown, 0x43, 0x55, 6, 0, false⟩) := by decide +kernel
theorem test_noteErase_removes : read .noteErase (queued shown 0x43 [7, 0]) (fun t => t.frontPage.map fun p => p.2.notes) = some (some []) := by
  decide +kernel
theorem test_streamReset_drops : read .streamReset (queued { typed with cmd := { typed.cmd with streamHold := 1 } } 0x47 [])
    (fun t => (t.planes.a.part, t.comp, t.faces.current, t.cmd.streamHold)) = some (none, Composer.reset, 0, 0) := by decide +kernel

/-! ### Chapter 8: the worked pixel cases of 8.7 -/

theorem test_pixels_worked : shadeLevel 4 3 15 = 12 ∧ inkLevel 10 12 = 4 ∧ shadeLevel 4 7 9 = 4 ∧ inkLevel 15 15 = 0 ∧ inkLevel 8 7 = 3 ∧
    underlineLevel 12 = 3 ∧ shadeLevel 8 11 15 = 8 := by decide
/-- R143 and R144: a glyph of full coverage on paper. -/
theorem test_drawCoverage : drawCoverage 5 7 2 0 100 0 [15, 10] [] = [(7 * 1680 + 5, 0), (7 * 1680 + 6, 5)] := by decide

/-! ### Chapters 9 and 10 -/

/-- 9.7: a request of (31, 2, 10, 50) with mode 1. -/
theorem test_refreshRequest_clamp : read .refreshRequest (queued shown 0x44 [31, 2, 10, 50, 1])
    (fun t => (t.lanes.lane[0].update.map fun u => (u.mode, u.rect), t.events.flags)) =
    some (some (.grey, ⟨10, 2, 29, 39⟩), 0x8000) := by decide +kernel
/-- 9.3: a GREY request that meets the full queue's last, a FULL CLEANUP request, merges with it. -/
theorem test_enqueue_full : enqueue (List.replicate 15 ⟨.request, 1, .fast, ⟨0, 0, 1, 1⟩⟩ ++ [⟨.cleanup, 0, .full, ⟨2, 30, 27, 35⟩⟩])
    ⟨.request, 1, .grey, ⟨4, 20, 9, 25⟩⟩ =
    List.replicate 15 ⟨.request, 1, .fast, ⟨0, 0, 1, 1⟩⟩ ++ [⟨.request, 1, .full, ⟨2, 20, 27, 35⟩⟩] := by decide +kernel
theorem test_panelReset_full : read .panelReset (queued sending 0x48 [])
    (fun t => (t.lanes.sent, t.lanes.lane[0].seq, t.lanes.lane[0].update.map (·.mode), t.planner.tiles[300].residue)) =
    some ([.cut 0 14, .abort], 15, some .full, 255) := by decide +kernel
/-- R170 and R182: the request of the tiles held is removed, no tile becomes unknown, and lane 0 takes the FULL request under a floor of 3. -/
theorem test_panelReset_held : read .panelReset (queued { held with params := { held.params with floor := 3 } } 0x48 [])
    (fun t => (t.lanes.order, t.lanes.lane[0].update.map fun u => (u.source, u.mode), t.planner.tiles[300].residue, t.planner.queue.length)) =
    some ([0], some (.flip, .full), 20, 0) := by decide +kernel
theorem test_sendEnd_waits : read .sendEnd sending (fun t => (t.lanes.lane[0].state, t.lanes.order, t.lanes.tx, t.lanes.sent.length)) =
    some (.waiting, [], none, 1) := by decide +kernel
/-- 10.6 at 10,300: a residue rises by 8, coarse is set, the duration is 300; and R107 raises PAGE_SHOWN (bit 2). -/
theorem test_completionFrame_ok : read (.completionFrame 0)
    { waiting with planner := { waiting.planner with tiles := Vector.replicate 1200 { residue := 20, coarse := false } } }
    (fun t => (t.planner.tiles[300], t.lanes.lastFast, t.lanes.lane[0].state, t.events.flags)) =
    some (⟨28, true⟩, 300, .idle, 4) := by decide +kernel
/-- 10.6 at 10,310: sequence number 13 is late (bit 14). -/
theorem test_completionFrame_late : read (.completionFrame 0) { waiting with lanes := { waiting.lanes with rx := some [0, 13] } }
    (fun t => (t.lanes.lane[0].state, t.events.flags)) = some (.waiting, 0x4000) := by decide +kernel
theorem test_pnlRxByte_begins : read (.pnlRxByte 0xC1) State.reset (·.lanes.rx) = some (some []) := by decide +kernel
theorem test_pnlRxByte_skips : read (.pnlRxByte 0xC0) State.reset (·.lanes.rx) = some none := by decide +kernel
theorem test_pnlRxBreak_discards : read .pnlRxBreak waiting (·.lanes.rx) = some none := by decide +kernel
/-- 10.4: a FAST limit of 37 units is reached at 592 ms. -/
theorem test_laneTimeout_faults : read (.laneTimeout 0) waiting (fun t => (t.lanes.lane[0].state, t.planner.tiles[300].residue, t.planes.showing)) =
    some (.faulted, 255, []) := by decide +kernel
theorem test_tick_counts : read .tick waiting (fun t => (t.tick, t.lanes.lane[0].elapsed, t.lanes.lane[1].elapsed)) = some (10301, 593, 0) := by
  decide +kernel
/-- R174 and 10.2: the bytes of a frame of one tile. -/
theorem test_frame_bytes : (updateFrameBytes 0 14 .fast ⟨0, 9, 0, 9⟩ []).take 9 = [0xA1, 0, 14, 2, 0, 9, 0, 9, 0xFF] := by decide +kernel
theorem test_coalescing_releases : read .coalescingTimerExpiry
    { shown with notes := { shown.notes with tiles := [300, 366], chain := 1, coalesce := some ⟨0, true⟩ } }
    (fun t => (t.notes.tiles, t.lanes.lane[0].update.map fun u => (u.source, u.mode, u.rect))) =
    some ([], some (.paint, .fast, ⟨0, 10, 6, 12⟩)) := by decide +kernel
theorem test_settle_asks : read .settleTimerExpiry
    { shown with planner := { shown.planner with tiles := (Vector.replicate 1200 ⟨0, false⟩).set 366 ⟨9, true⟩, settle := some ⟨0, true⟩ } }
    (fun t => (t.planner.settle, t.lanes.lane[0].update.map fun u => (u.source, u.mode, u.rect))) =
    some (none, some (.settle, .grey, ⟨6, 12, 6, 12⟩)) := by decide +kernel
theorem test_sweep_asks : read .sweepTimerExpiry
    { shown with planner := { shown.planner with tiles := (Vector.replicate 1200 ⟨47, false⟩).set 366 ⟨48, false⟩, sweep := some ⟨600000, true⟩ } }
    (fun t => (t.planner.sweep, t.lanes.lane[0].update.map fun u => (u.source, u.mode, u.rect))) =
    some (some ⟨600000, false⟩, some (.cleanup, .full, ⟨6, 12, 6, 12⟩)) := by decide +kernel

/-! ### Chapter 11 -/

/-- A FACE_FAULT as 11.7 leaves it. -/
def faulted : State :=
  { State.reset with events := { EventUnit.reset with flags := 0x20, face := some ⟨.absent, 6, 0x61, 9, 0, true⟩ } }

/-- 11.7: the reply to QUERY FAULT 0. -/
theorem test_query_fault : read .query (queued faulted 0x46 [7, 0, 0, 0]) (·.link.reply) =
    some [7, 0x55, 0, 1, 1, 2, 6, 0x61, 9, 0, 0, 0, 1] := by decide +kernel
/-- 11.7: EVENT_ACK of bit 5 clears flag and slot. -/
theorem test_eventAck_clears : read .eventAck (queued faulted 0x45 [0x20, 0]) (fun t => (t.events, attnLow { t with params := { t.params with levelMask := 0 } })) =
    some (EventUnit.reset, false) := by decide +kernel
/-- R192 and R193: the FULL limit of 4,000 ms is 250 units; a stretch factor of 99 is clamped to 64; id 22 is unknown. -/
theorem test_paramSet_sets : read .paramSet (atHead State.reset 0x18 [17, 0xA0, 0x0F, 1, 99, 0, 22, 0, 0])
    (fun t => (t.params.limitFull, t.params.stretch, t.events.flags, t.ring)) = some (250, 64, 0x8010, []) := by decide +kernel

/-! ### Witnesses: the hypotheses of each obligation can be met -/

/-- The queue of the model holds one step. -/
def oneStep : State := { State.reset with pending := [.transferBegin] }

theorem witness_StepRunsFrontCommand : oneStep.pending = .transferBegin :: [] := rfl
theorem witness_WellFormedCommandsAnswer : (Instr.laneTimeout 3).wellFormed = true ∧ (Instr.laneTimeout 4).wellFormed = false := ⟨rfl, rfl⟩
theorem witness_TransfersCarryDigestAndReply :
    State.reset.link.select = .high ∧ (7 < 8 ∧ (framed .between).link.select = .transfer) ∧
    ({ State.reset with link := { Link.reset with select := .ignored } } : State).link.select = .ignored ∧
    (let s : State := { State.reset with link := { Link.reset with select := .transfer, outbound := [7, 9], clocked := 1 } }
     s.link.outbound[s.link.clocked]? = some 9 ∧ pslDo s = some 9) ∧
    (let s : State := { State.reset with link := { Link.reset with select := .transfer, outbound := [7, 9], clocked := 2 } }
     s.link.outbound.length ≤ s.link.clocked ∧ pslDo s = some 0) ∧
    (shown.planes.find .shown = some .a ∧ shown.planes.a.held = some ⟨.shown, shownPage⟩ ∧ frontNumber shown = 41) ∧
    State.reset.planes.find .shown = none :=
  ⟨rfl, ⟨by decide, rfl⟩, rfl, ⟨rfl, rfl⟩, ⟨by decide, rfl⟩, ⟨rfl, rfl, rfl⟩, rfl⟩
theorem witness_HeaderIsJudgedInOrder :
    (framed (.header [0x40, 1, 4])).link.select = .transfer ∧ (framed (.header [0x40, 1, 4])).link.framing = .header [0x40, 1, 4] := ⟨rfl, rfl⟩
/-- A framing state for each clause, the last bytes of a record and of a command among them. -/
theorem witness_InboundByteIsFramed :
    State.reset.link.select ≠ .transfer ∧ (framed .between).link.select = .transfer ∧
    (framed (.header [1, 2])).link.framing = .header [1, 2] ∧ [(1 : Byte), 2].length ≠ 3 ∧
    (framed (.header [1, 2, 3])).link.framing = .header [1, 2, 3] ∧ [(1 : Byte), 2, 3].length = 3 ∧
    (framed (.bodyStream 6 0x61 5 [])).link.framing = .bodyStream 6 0x61 (([] : List Byte).length + 5) [] ∧
    (framed (.bodyCommand 0x45 0 6 [1])).link.framing = .bodyCommand 0x45 0 ([(1 : Byte)].length + 5) [1] ∧ (0x45 : Byte) ≠ 0x47 ∧
    (framed (.skipCommand 1)).link.framing = .skipCommand 1 ∧ (framed .skipRest).link.framing = .skipRest := by
  refine ⟨?_, rfl, rfl, ?_, rfl, rfl, rfl, rfl, ?_, rfl, rfl⟩ <;> decide

/-- A record at the ring's head is taken. -/
theorem takes_atHead (s : State) (kind : Byte) (body : List Byte) (h1 : s.comp.state.waiting = false) (h2 : s.cmd.streamHold = 0)
    (h3 : s.comp.carry = []) : Takes (atHead s kind body) (rec55 kind body) [] := ⟨rfl, h1, h2, h3⟩

/-- The same with a page open. -/
theorem inPage_atHead (kind : Byte) (body : List Byte) : TakesInPage (atHead opened kind body) (rec55 kind body) [] := ⟨rfl, rfl, rfl, rfl⟩

/-- A command alone in the queue is the oldest. -/
theorem commands_queued (s : State) (kind : Byte) (body : List Byte) (h : s.cmd.executing = none) :
    Commands (queued s kind body) (rec55 kind body) [] := ⟨rfl, h⟩

/-- A held Composer; an unassigned kind; a record one byte too long; a content record in IDLE. -/
theorem witness_ComposerHoldsAndDiscards :
    waitingPage.comp.state.waiting = true ∧ .pageOpen ∈ composerSteps ∧
    Takes (atHead State.reset 0x0C []) (rec55 0x0C []) [] ∧ (rec55 0x0C []).kind ∉ streamKinds ∧
    Takes (atHead State.reset 2 [0, 0]) (rec55 2 [0, 0]) [] ∧ (.pageClose, 2, (· == 5), true) ∈ composerRecords ∧
    ((rec55 2 [0, 0]).length == 5) = false ∧
    Takes (atHead State.reset 2 [0]) (rec55 2 [0]) [] ∧ ((rec55 2 [0]).length == 5) = true ∧ (atHead State.reset 2 [0]).comp.state = .idle := by
  refine ⟨rfl, by decide, takes_atHead _ _ _ rfl rfl rfl, by decide, takes_atHead _ _ _ rfl rfl rfl, ?_, rfl, takes_atHead _ _ _ rfl rfl rfl, rfl, rfl⟩
  exact List.mem_cons_of_mem _ (List.mem_cons_self ..)
theorem witness_FaceLoadIsCheckedInOrder :
    Takes (atHead faced 0x10 (List.replicate 15 0)) (rec55 0x10 (List.replicate 15 0)) [] ∧ (List.replicate 15 (0 : Byte)).length = 15 :=
  ⟨takes_atHead _ _ _ rfl rfl rfl, rfl⟩
theorem witness_FaceUnloadOutcomes : Takes (atHead faced 0x11 [3]) (rec55 0x11 [3]) [] ∧ (rec55 0x11 [3]).body.length = 1 :=
  ⟨takes_atHead _ _ _ rfl rfl rfl, rfl⟩
theorem witness_FaceSelectOutcomes : TakesInPage (atHead opened 6 [3]) (rec55 6 [3]) [] ∧ (rec55 6 [3]).body.length = 1 := ⟨inPage_atHead _ _, rfl⟩
theorem witness_StyleStackAndShift :
    TakesInPage (atHead opened 7 []) (rec55 7 []) [] ∧ TakesInPage (atHead opened 8 []) (rec55 8 []) [] ∧
    TakesInPage (atHead opened 9 [64, 0]) (rec55 9 [64, 0]) [] ∧ (rec55 9 [64, 0]).body.length = 2 :=
  ⟨inPage_atHead _ _, inPage_atHead _ _, inPage_atHead _ _, rfl⟩
theorem witness_TableBeginIsCheckedInOrder :
    Takes (atHead State.reset 0x12 (List.replicate 517 0)) (rec55 0x12 (List.replicate 517 0)) [] ∧ (List.replicate 517 (0 : Byte)).length = 517 :=
  ⟨takes_atHead _ _ _ rfl rfl rfl, List.length_replicate⟩
theorem witness_GlyphDefineIsCheckedInOrder :
    Takes (atHead loading 0x13 (List.replicate 10 0)) (rec55 0x13 (List.replicate 10 0)) [] ∧ 10 ≤ (List.replicate 10 (0 : Byte)).length :=
  ⟨takes_atHead _ _ _ rfl rfl rfl, by decide⟩
theorem witness_TableEndAndDrop :
    (Takes (atHead loading 0x14 [2]) (rec55 0x14 [2]) [] ∧ (rec55 0x14 [2]).body.length = 1) ∧
    (Takes (atHead faced 0x15 [0]) (rec55 0x15 [0]) [] ∧ (rec55 0x15 [0]).body.length = 1) :=
  ⟨⟨takes_atHead _ _ _ rfl rfl rfl, rfl⟩, takes_atHead _ _ _ rfl rfl rfl, rfl⟩
theorem witness_ParamEntrySetsItsParameter : (21 < 22) ∧ (17, 112, 8000) ∈ paramTable ∧ 18 ≠ 17 := by decide
theorem witness_ParamSetIsApplied :
    Takes (atHead State.reset 0x18 (List.replicate 96 0)) (rec55 0x18 (List.replicate 96 0)) [] ∧ 32 ≤ 32 ∧ (List.replicate 96 (0 : Byte)).length = 3 * 32 :=
  ⟨takes_atHead _ _ _ rfl rfl rfl, Nat.le_refl _, rfl⟩
/-- Face 3 with its table: a code of the table, one outside the face's range, one undefined, and the other classes. -/
theorem witness_LookupFindsTheGlyph :
    faced.faces.face faced.faces.current = some faceN ∧ faced.glyphs[faceN.table]? = some tableN ∧
    tableN.find 0x6E = some (blank 0x6E 2000 1) ∧ tableN.find faceN.replacement = some (blank 0x6E 2000 1) ∧
    (0x7F < faceN.firstCode ∨ faceN.lastCode < 0x7F) ∧ (faceN.firstCode ≤ 0x7E ∧ 0x7E ≤ faceN.lastCode ∧ tableN.find 0x7E = none) := by
  refine ⟨rfl, rfl, rfl, rfl, ?_⟩; decide
theorem witness_AppendJoinsTheBuffer : ∃ page, typed.composingPage = some (.a, page) := ⟨_, rfl⟩
theorem witness_TextIsAppendedEntryByEntry :
    TakesInPage (atHead opened 5 [0x6E, 0, 0]) (rec55 5 [0x6E, 0, 0]) [] ∧ (rec55 5 [0x6E, 0, 0]).body.length = 3 * 1 ∧
    (atHead opened 5 [0x6E, 0, 0]).faces.current ≠ 0 ∧ (atHead opened 5 [0x6E, 0, 0]).comp.index < 1 ∧
    (atHead opened 5 [0x6E, 0, 0]).comp.nextOrdinal < 8192 ∧
    TakesInPage { atHead opened 5 [] with comp := { opened.comp with nextOrdinal := 8192 } } (rec55 5 []) [] ∧
    ({ opened with comp := { opened.comp with carry := [entryN 900] } } : State).comp.carry = entryN 900 :: [] ∧ opened.cmd.streamHold = 0 := by
  refine ⟨inPage_atHead _ _, rfl, ?_, ?_, ?_, ⟨rfl, rfl, rfl, rfl⟩, rfl, rfl⟩ <;> decide
/-- A line with a candidate at its second entry, and one without; the caps 600 and 450 of two spaces; and a fit by shrinking at its limit and 1 su beyond. -/
theorem witness_ChosenBreakIsTheLatestThatFits :
    (let es := [{ entryN 0 with cls := 1, advance := 1600 }, { entryN 1 with kern := some (-100) }, { entryN 2 with cls := 1, advance := 1201 }, entryN 3]
     spaceLimit 6 es = 450 ∧ naturalWidth 0 es = 6701 ∧ fits 6 5801 0 es = true ∧ fits 6 5800 0 es = false) ∧ spaceLimit 6 [entryN 0] = 0 ∧
    trimSpaces [{ entryN 0 with cls := 1 }, entryN 1, { entryN 2 with cls := 1 }] = [{ entryN 0 with cls := 1 }, entryN 1] ∧
    ([entryN 0, { entryN 1 with cls := 4 }] ≠ []) ∧ fits 4 4000 0 [entryN 0, { entryN 1 with cls := 4 }] = true ∧
    (chooseBreak 4 4000 (fun _ => 0) [entryN 0, { entryN 1 with cls := 4 }, entryN 2]).len = 2 ∧
    (chooseBreak 4 3999 (fun _ => 0) [entryN 0, entryN 1]).len = 1 ∧ (chooseBreak 4 1999 (fun _ => 0) [entryN 0]).overwide = true := by decide
theorem witness_BreakTestRepeatsUntilTheLineFits :
    (∃ page, typed.composingPage = some (.a, page) ∧ typed.comp.indent ≤ page.frame.width) ∧ typed.measure = 25600 ∧
    typed.faces.face 3 = some faceN ∧ typed.glyphs[faceN.table]? = some tableN ∧ tableN.find faceN.hyphen = some (blank 0x2D 640 0) :=
  ⟨⟨_, rfl, by decide⟩, by decide, rfl, rfl, rfl⟩
theorem witness_SharesSumToTheSlack :
    ((-1200 : Int) < 0 ∧ (0 < 9) ∧ -(-1200 : Int) ≤ ((9 * 400 : Nat) : Int)) ∧ ((2330 : Int) ≤ ((9 * 2400 : Nat) : Int)) ∧
    (((2 * 1800 : Nat) : Int) < 6600) := by decide
/-- A line with a space that hangs at its end, one with a space that hangs before its LINE_BREAK, and a space after a LINE_BREAK. -/
theorem witness_PositionsSumTheSpans :
    markHanging id [0, 1] = [(0, false), (1, true)] ∧ markHanging id [0, 1, 5] = [(0, false), (1, true), (5, false)] ∧
    markHanging id [5, 1] = [(5, false), (1, true)] ∧ markHanging id [1, 0] = [(1, false), (0, false)] ∧ markHanging id [5] = [(5, false)] ∧
    [entryN 0, entryN 1][1]? = some (entryN 1) ∧ 0 < [entryN 2].length ∧ { entryN 3 with cls := 5 }.cls = 5 ∧ (entryN 3).kern = none := by decide
theorem witness_LineIsLaidOut :
    let l : EndingLine := { entries := [entryN 0], hyphenated := false, forced := false, overwide := false, last := true, paraLast := true }
    (markHanging (·.cls) l.entries)[0]? = some (entryN 0, false) ∧
    (positions (Spread.natural 0) 0 true 0 0 (markHanging (·.cls) l.entries))[0]? = some 0 := by decide
theorem witness_CommitPlacesTheLine : ∃ page, opened.composingPage = some (.a, page) ∧ ¬ 160 ≤ page.lines.length := ⟨freshPage, rfl, by decide⟩
theorem witness_PageFullCarriesTheBuffer : ∃ page, typed.composingPage = some (.a, page) := ⟨_, rfl⟩
theorem witness_ParagraphsOpenAndEnd :
    TakesInPage (atHead opened 3 [1, 0, 0, 0]) (rec55 3 [1, 0, 0, 0]) [] ∧ (rec55 3 [1, 0, 0, 0]).body.length = 4 ∧
    (atHead opened 3 [1, 0, 0, 0]).composingPage = some (.a, freshPage) ∧
    TakesInPage (atHead opened 4 []) (rec55 4 []) [] := ⟨inPage_atHead _ _, rfl, rfl, inPage_atHead _ _⟩
theorem witness_PageOpenOpensOrWaits :
    Takes (atHead faced 1 (List.replicate 12 0)) (rec55 1 (List.replicate 12 0)) [] ∧ (List.replicate 12 (0 : Byte)).length = 12 ∧
    (atHead faced 1 (List.replicate 12 0)).comp.state = .idle ∧
    Takes (atHead opened 1 (List.replicate 12 0)) (rec55 1 (List.replicate 12 0)) [] ∧
    (atHead opened 1 (List.replicate 12 0)).comp.state = .composing :=
  ⟨takes_atHead _ _ _ rfl rfl rfl, rfl, rfl, takes_atHead _ _ _ rfl rfl rfl, rfl⟩
theorem witness_PageCloseClosesThePage :
    TakesInPage (atHead opened 2 [1]) (rec55 2 [1]) [] ∧ (rec55 2 [1]).body.length = 1 ∧ opened.composingPage = some (.a, freshPage) :=
  ⟨inPage_atHead _ _, rfl, rfl⟩
theorem witness_GrantOpensThePendingPage :
    waitingPage.cmd.streamHold = 0 ∧ waitingPage.planes.available = some .a ∧ waitingPage.comp.state = .waitPlane (.opening 0 frame400) ∧
    ({ waitingPage with comp := { Composer.reset with state := .waitPlane (.continuation 1 frame400 []) } } : State).comp.state =
      .waitPlane (.continuation 1 frame400 []) := ⟨rfl, rfl, rfl, rfl⟩
theorem witness_FlipShowsTheReadyPage : readied.planes.find .ready = some .a := rfl
theorem witness_ShowAndDropActOnTheReadyPage :
    Commands (queued readied 0x40 []) (rec55 0x40 []) [] ∧ Commands (queued readied 0x41 []) (rec55 0x41 []) [] :=
  ⟨commands_queued _ _ _ rfl, commands_queued _ _ _ rfl⟩
theorem witness_StreamNotesOpenAndClose :
    TakesInPage (atHead opened 0x0A [9, 0, 0, 11]) (rec55 0x0A [9, 0, 0, 11]) [] ∧ (rec55 0x0A [9, 0, 0, 11]).body.length = 4 ∧
    opened.composingPage = some (.a, freshPage) ∧ 9 ∉ opened.notes.openIds ∧
    (let n : Note := { noteSeven with stop := none }
     let s : State := { atHead opened 0x0B [7, 0] with
       notes := { NoteUnit.reset with openIds := [7] }
       planes := { Planes.reset with a := { held := some ⟨.composing, { freshPage with notes := [n] }⟩, pixels := [] } } }
     TakesInPage s (rec55 0x0B [7, 0]) [] ∧ 7 ∈ s.notes.openIds ∧ [n].find? (fun m => m.id == 7) = some n ∧
     [n].Pairwise (fun m n => m.before n = true)) := by
  refine ⟨inPage_atHead _ _, rfl, rfl, by decide, ⟨rfl, rfl, rfl, rfl⟩, by decide, rfl, List.pairwise_singleton ..⟩
theorem witness_PaintAndEraseRewriteTheFrontPage :
    (Commands (queued shown 0x42 [5, 0, 0, 12, 0, 0, 9, 0]) (rec55 0x42 [5, 0, 0, 12, 0, 0, 9, 0]) [] ∧
      (rec55 0x42 [5, 0, 0, 12, 0, 0, 9, 0]).body.length = 8) ∧
    (Commands (queued shown 0x43 [7, 0]) (rec55 0x43 [7, 0]) [] ∧ (rec55 0x43 [7, 0]).body.length = 2) :=
  ⟨⟨commands_queued _ _ _ rfl, rfl⟩, commands_queued _ _ _ rfl, rfl⟩
/-- A re-render of tile 300 is held while lane 0 sends it, and not once it waits. -/
theorem witness_RerenderDrawsOrIsHeld :
    sending.frontPage = some (.a, shownPage) ∧ sendConflict sending.lanes .a [300] = true ∧
    waiting.frontPage = some (.a, shownPage) ∧ sendConflict waiting.lanes .a [300] = false := by
  refine ⟨rfl, ?_, rfl, ?_⟩ <;> decide +kernel
theorem witness_ReleaseRequestsTheBoundingBox :
    shown.notes.tiles = [] ∧ boundingBox [300, 366] = some ⟨0, 10, 6, 12⟩ ∧ (⟨0, 10, 6, 12⟩ : Rect).has 366 = true := ⟨rfl, by decide, by decide⟩
/-- A queue with a partner for a FAST request of tile (0, 0); one without; a full one without. -/
theorem witness_ArrivalMergesOrJoins :
    let p : Request := ⟨.request, 1, .fast, ⟨0, 0, 1, 1⟩⟩
    let far : Request := ⟨.request, 1, .fast, ⟨9, 9, 9, 9⟩⟩
    ([p][0]? = some p ∧ p.mode = .fast ∧ p.rect.meets ⟨0, 0, 0, 0⟩ = true) ∧ (p.rect.meets far.rect = false ∧ [p].length < 16) ∧
    16 ≤ (List.replicate 16 p).length := by decide
/-- The idle state with one request pending: lane 0 is the lowest IDLE lane, and the request is eligible. -/
theorem witness_DispatchTakesTheFirstEligible :
    let r : Request := ⟨.flip, 2, .grey, wholePanel⟩
    let s : State := { shown with planner := { Planner.reset with queue := [r] } }
    s.lanes.lane[(0 : Fin 4)].state = .idle ∧ (∀ j < (0 : Fin 4), s.lanes.lane[j].state ≠ .idle) ∧ s.planes.find .shown = some .a ∧ eligible s 0 r ∧
      (∀ j p, eligible s j p → j ≠ 0 → standsAhead s.planner.queue 0 j) := by
  refine ⟨rfl, fun j hj => absurd hj (by simp), rfl, ⟨rfl, by decide, by decide +kernel, ?_⟩, ?_⟩
  · rintro (_ | j) p hj ⟨x, y, hx, hy, h⟩
    · cases hx; cases hy; simp at h
    · simp at hj
  · rintro (_ | j) p ⟨hj, -⟩ h
    · exact absurd rfl h
    · simp at hj
theorem witness_RefreshRequestArrives : Commands (queued shown 0x44 [31, 2, 10, 50, 2]) (rec55 0x44 [31, 2, 10, 50, 2]) [] := commands_queued _ _ _ rfl
/-- A slot that an EVENT_ACK empties, and that the next fault fills afresh. -/
theorem witness_EventAckClearsWhatItNames :
    Commands (queued faulted 0x45 [0x20, 0]) (rec55 0x45 [0x20, 0]) [] ∧
    read .eventAck (queued faulted 0x45 [0x20, 0]) (fun t => (t.faceFault .range (rec55 0x06 [33]) 33 0).events.face) =
      some (some { reason := .range, kind := 0x06, tag := 0x55, value := 33, ordinal := 0, more := false }) :=
  ⟨commands_queued _ _ _ rfl, rfl⟩
/-- A QUERY of each kind, at the ends of the ranges its clause names. -/
theorem witness_QueryRepliesByKind :
    Commands (queued shown 0x46 [0, 0, 3, 0]) (rec55 0x46 [0, 0, 3, 0]) [] ∧
    (shown.faces.face 3).isSome = true ∧ (shown.faces.face 32).isSome = false ∧ shown.faces.stack.length ≤ 8 ∧ shown.notes.openIds.length ≤ 8 ∧
    (queryReply shown (rec55 0x46 [0, 0, 3, 0])).length = 49 ∧ (queryReply shown (rec55 0x46 [0, 0, 32, 0])).length = 4 ∧
    (queryReply shown (rec55 0x46 [1, 0, 15, 0])).length = 21 ∧ (queryReply shown (rec55 0x46 [1, 0, 16, 0])).length = 4 ∧
    (queryReply shown (rec55 0x46 [2, 0, 0, 0])).length = 38 ∧ (queryReply shown (rec55 0x46 [2, 1, 0, 0])).length = 4 ∧
    (queryReply shown (rec55 0x46 [3, 0, 0, 0])).length = 19 ∧ (queryReply shown (rec55 0x46 [3, 0, 1, 0])).length = 4 ∧
    (queryReply shown (rec55 0x46 [4, 0, 7, 0])).length = 14 ∧ (queryReply shown (rec55 0x46 [4, 1, 7, 0])).length = 4 ∧
    (queryReply shown (rec55 0x46 [5, 0, 0, 0])).length = 64 ∧ (queryReply shown (rec55 0x46 [6, 0, 0xAF, 4])).length = 6 ∧
    (queryReply shown (rec55 0x46 [6, 0, 0xB0, 4])).length = 4 ∧ (queryReply shown (rec55 0x46 [7, 4, 0, 0])).length = 13 ∧
    (queryReply shown (rec55 0x46 [7, 5, 0, 0])).length = 4 ∧ (queryReply shown (rec55 0x46 [8, 0, 0, 0])).length = 4 ∧
    shownPage.lines[0]? = some lineN ∧ shownPage.lines.length ≤ 1 ∧ shownPage.notes[0]? = some noteSeven ∧ noteSeven.id = 7 ∧
    (∀ n ∈ shownPage.notes, n.id ≠ 8) ∧ shown.planes.b.held = none ∧ shown.planes.find .ready = none := by
  refine ⟨commands_queued _ _ _ rfl, ?_⟩; decide +kernel
/-- 11.5: the LINE reply, byte by byte, and a TILE reply of the last tile. -/
theorem test_query_bytes :
    queryReply shown (rec55 0x46 [3, 0, 0, 0]) =
      [3, 0x55, 0, 3, 0, 0, 0, 1, 0, 138, 0, 38, 10, 8, 0, 0, 0, 0, 0x60] ∧
    queryReply shown (rec55 0x46 [6, 0, 0xAF, 4]) = [6, 0x55, 0xAF, 4, 255, 0] := by decide +kernel
theorem witness_StreamResetEndsTheStream : Commands (queued typed 0x47 []) (rec55 0x47 []) [] := commands_queued _ _ _ rfl
theorem witness_PanelResetAbandonsEveryUpdate : Commands (queued sending 0x48 []) (rec55 0x48 []) [] := commands_queued _ _ _ rfl
theorem witness_SendEndFreesAndTests : sending.lanes.tx = some 0 ∧ sending.lanes.lane[(0 : Fin 4)].update = some fastUpdate := ⟨rfl, rfl⟩
/-- Receiver states for the bytes; lane 0 WAITING for sequence number 14; and no lane WAITING for 13. -/
theorem witness_CompletionFrameEndsItsUpdate :
    State.reset.lanes.rx = none ∧ [(0 : Byte)].length < 2 ∧ waiting.lanes.rx = some [0, 14] ∧ (0 : Byte).toNat = (0 : Fin 4) ∧
    waiting.lanes.lane[(0 : Fin 4)].state = .waiting ∧ waiting.lanes.lane[(0 : Fin 4)].seq = 14 ∧
    waiting.lanes.lane[(0 : Fin 4)].update = some fastUpdate ∧
    ¬ ∃ i : Fin 4, (0 : Byte).toNat = i ∧ waiting.lanes.lane[i].state = .waiting ∧ waiting.lanes.lane[i].seq = 13 := by
  refine ⟨rfl, by decide, rfl, rfl, rfl, rfl, rfl, by decide +kernel⟩
/-- The FAST limit of 37 units at 592 ms, and one millisecond before. -/
theorem witness_TimeoutFaultsTheLane :
    waiting.lanes.lane[(0 : Fin 4)].update = some fastUpdate ∧ waiting.lanes.lane[(0 : Fin 4)].state = .waiting ∧
    fastUpdate.limit ≤ waiting.lanes.lane[(0 : Fin 4)].elapsed / 16 ∧ 591 / 16 < fastUpdate.limit ∧ sending.lanes.lane[(0 : Fin 4)].state ≠ .waiting := by
  refine ⟨rfl, rfl, ?_, ?_, ?_⟩ <;> decide +kernel
theorem witness_TimersRunWithTheTick :
    due (some ⟨0, true⟩) = true ∧ due shown.notes.coalesce = false ∧ shown.cmd.queued = [] ∧ shown.cmd.executing = none ∧
    shown.link.framing.reservesSlot = false := ⟨rfl, rfl, rfl, rfl, rfl⟩
theorem storeSafe_reset : StoreSafe State.reset := by
  refine ⟨by decide, fun t ht => ?_⟩
  have : t = GlyphTable.empty := by simpa [State.reset] using ht
  subst this
  exact ⟨by decide, by decide, List.Pairwise.nil, by simp [GlyphTable.empty], by simp [GlyphTable.empty], by simp [GlyphTable.empty], fun _ => rfl⟩
/-- The last pixel of a plane, the bounds of the fields named, a store whose glyphs have their bitmaps; and a margin bar's columns at left margins 11 and 12. -/
theorem witness_PixelsAreDrawnAndSent :
    Pixels.wf [(1680 * 2240 - 1, 0)] ∧ (1456 ≤ 1456) ∧ 15 ≤ 15 ∧ StoreSafe State.reset ∧ State.reset.params.Safe ∧
    barColumns 11 = [0, 1, 2] ∧ barColumns 12 = [0, 1, 2] ∧ barColumns 13 = [1, 2, 3] := by
  refine ⟨⟨List.pairwise_singleton .., ?_⟩, by decide, by decide, storeSafe_reset, by unfold Params.Safe; decide, rfl, rfl, rfl⟩
  intro p hp
  rw [List.mem_singleton.1 hp]
  exact ⟨by decide, by decide⟩
/-- Before a transfer begins nothing stands in any block. -/
theorem witness_StepKeepsLinkSafe : LinkSafe oneStep ∧ ∃ t, step oneStep = .next t :=
  ⟨⟨trivial, by decide, by decide, rfl, by simp [oneStep, State.reset, CommandUnit.reset], by simp [oneStep, State.reset]⟩, _, rfl⟩
theorem planeSafe_oneStep : PlaneSafe oneStep := by
  refine ⟨trivial, by decide, by decide, fun h => absurd rfl h, fun h => absurd rfl h, ?_, ?_, ?_⟩
  · intro x hx i h
    have : x = Lane.reset := by simpa [oneStep, State.reset, LaneController.reset] using hx
    subst this; cases h
  · intro i h; cases i <;> cases h
  · intro h hh; cases hh
theorem composerSafe_oneStep : ComposerSafe oneStep := by
  refine ⟨by decide, by decide, fun _ => ⟨rfl, rfl⟩, fun _ => ⟨rfl, rfl⟩, fun _ _ h => (nomatch h), fun _ => ⟨rfl, rfl⟩, trivial, trivial,
    fun _ h => (nomatch h), fun _ h => (nomatch h), fun _ h => (nomatch h), fun _ h => (nomatch h)⟩
theorem witness_StepKeepsFaceSafe : PlaneSafe oneStep ∧ ComposerSafe oneStep ∧ FaceSafe oneStep ∧ ∃ t, step oneStep = .next t := by
  refine ⟨planeSafe_oneStep, composerSafe_oneStep, ⟨by decide, by decide, by simp [oneStep, State.reset, FaceTable.reset], .inl rfl,
    by simp [oneStep, State.reset, FaceTable.reset], by simp [oneStep, State.reset, Planes.reset, Plane.free, Plane.faceSet],
    by simp [oneStep, State.reset, Planes.reset, Plane.free, Plane.faceSet], by simp [oneStep, State.reset, Composer.reset], fun _ h => (nomatch h),
    fun _ h => (nomatch h), ?_⟩, _, rfl⟩
  intro f hf x hx
  have : f = none := by simpa [oneStep, State.reset, FaceTable.reset] using hf
  rw [this] at hx; cases hx
theorem witness_StepKeepsStoreSafe : StoreSafe oneStep ∧ ∃ t, step oneStep = .next t := ⟨storeSafe_reset, _, rfl⟩
theorem witness_StepKeepsPlaneSafe : PlaneSafe oneStep ∧ ∃ t, step oneStep = .next t := ⟨planeSafe_oneStep, _, rfl⟩
theorem witness_StepKeepsComposerSafe : PlaneSafe oneStep ∧ ComposerSafe oneStep ∧ ∃ t, step oneStep = .next t :=
  ⟨planeSafe_oneStep, composerSafe_oneStep, _, rfl⟩
theorem witness_StepKeepsPixelSafe : ComposerSafe oneStep ∧ PixelSafe oneStep ∧ ∃ t, step oneStep = .next t :=
  ⟨composerSafe_oneStep, ⟨⟨.nil, fun _ h => (nomatch h)⟩, .nil, fun _ h => (nomatch h)⟩, _, rfl⟩
/-- Between pages; and note lists at the ends of what NotesBelow allows, for a closed and for an open note. -/
theorem witness_StepKeepsNoteSafe :
    (PlaneSafe oneStep ∧ ComposerSafe oneStep ∧ NoteSafe oneStep ∧ ∃ t, step oneStep = .next t) ∧
    NotesBelow 1 [noteSeven] ∧ ¬ NotesBelow 0 [noteSeven] ∧ NotesBelow 1 [{ noteSeven with start := 1, stop := none }] ∧
    ¬ NotesBelow 0 [{ noteSeven with start := 1, stop := none }] := by
  refine ⟨⟨planeSafe_oneStep, composerSafe_oneStep, ⟨(fun i x h => by cases i <;> cases h), ⟨by decide, .nil, .nil, fun _ h => (nomatch h)⟩,
    (fun _ _ h => (nomatch h)), by decide, .nil, fun id => ?_⟩, _, rfl⟩, ?_⟩
  · simp [oneStep, State.reset, NoteUnit.reset, streamNotes, Composer.reset]
  · simp [NotesBelow, noteSeven]
theorem witness_StepKeepsLaneSafe : LaneSafe oneStep ∧ ∃ t, step oneStep = .next t := by
  refine ⟨⟨by decide, ?_, .nil, by decide +kernel, rfl, by decide +kernel, .nil, by decide, fun _ h => (nomatch h)⟩, _, rfl⟩
  intro i j k _ h
  have : oneStep.lanes.lane[i] = Lane.reset := by simp [oneStep, State.reset, LaneController.reset]
  rw [this] at h; cases h
theorem witness_StepKeepsPlannerSafe : PlannerSafe oneStep ∧ ∃ t, step oneStep = .next t := by
  refine ⟨⟨by unfold Params.Safe; decide, fun t ht => ?_, by decide, .nil, by simp [oneStep, State.reset, NoteUnit.reset], by decide,
    by simp [oneStep, State.reset, Planner.reset], fun _ h => (nomatch h)⟩, _, rfl⟩
  have : t = { residue := 255, coarse := false } := by simpa [oneStep, State.reset, Planner.reset] using ht
  rw [this]
theorem witness_StepKeepsEventSafe : EventSafe oneStep ∧ ∃ t, step oneStep = .next t := ⟨⟨rfl, rfl, rfl, rfl, rfl⟩, _, rfl⟩

end Sys2Proof.Tests
end

section
/-! PROOFS. Chapter 1: the fourth byte of a header, and the checks of R3. A header judged falls in one of three bands: refused outright, a command's, a
stream record's; each has its equation, and the statement is put together from them. -/

namespace Sys2Proof.Machine

open Sys2Proof

variable {s : State} {kind tag lo hi : Byte} {len : Nat} {r : Record}

/-! ### A byte of a transfer is counted -/

/-- R1: a byte completed in a transfer is counted, before framing takes it. -/
def State.countByte (s : State) : State := s.setLink { s.link with clocked := s.link.clocked + 1 }

/-- Counting the byte neither takes nor frees a slot of the queue or a byte of the ring. -/
@[simp] theorem freeSlots_countByte (s : State) : freeSlots s.countByte = freeSlots s := rfl
@[simp] theorem freeBytes_countByte (s : State) : freeBytes s.countByte = freeBytes s := rfl

theorem clockByte_of_transfer (hsel : s.link.select = .transfer) (b : Byte) : s.clockByte b = s.countByte.frameByte b := by
  simp only [State.clockByte, hsel, State.countByte]

theorem frameByte_fourth (hf : s.link.framing = .header [kind, tag, lo]) (b : Byte) : s.frameByte b = s.judgeHeader kind tag lo b := by
  simp only [State.frameByte, hf]

/-- R3: in a transfer, behind three header bytes, RECORD_HEADER counts its byte and judges the header. -/
theorem exec_recordHeader_fourth (hsel : s.link.select = .transfer) (hf : s.link.framing = .header [kind, tag, lo]) :
    exec (.recordHeader hi) s = .next (s.countByte.judgeHeader kind tag lo hi) := by
  have hnext : s.link.framing.headerNext = true := by rw [hf]; rfl
  calc exec (.recordHeader hi) s
      = .next (if s.link.framing.headerNext then s.clockByte hi else s) := rfl
    _ = .next (s.countByte.judgeHeader kind tag lo hi) := by
      rw [if_pos hnext, clockByte_of_transfer hsel, frameByte_fourth (s := s.countByte) hf]

/-! ### The bands of a header -/

/-- R3, checks 1 and 2: the lengths and kinds that no header may have. -/
abbrev HeaderUnframed (kind : Byte) (len : Nat) : Prop := len < 4 ∨ 2048 < len ∨ 0x60 ≤ kind.toNat

theorem judgeHeader_unframed (hlen : lo.toNat + 256 * hi.toNat = len) (hbad : HeaderUnframed kind len) :
    s.judgeHeader kind tag lo hi = (s.setLink { s.link with framing := .skipRest }).raise .framingError := by
  subst hlen
  exact if_pos (by simpa [HeaderUnframed, or_assoc] using hbad)

/-- R3, checks 3 to 5, and what an admitted command header does. -/
theorem judgeHeader_command (hlen : lo.toNat + 256 * hi.toNat = len) (hok : ¬ HeaderUnframed kind len) (hk : 0x40 ≤ kind.toNat) :
    s.judgeHeader kind tag lo hi =
      if commandLength kind = none then s.refuseHeader .unknownKind kind tag len
      else if commandLength kind ≠ some len then s.refuseHeader .badLength kind tag len
      else if freeSlots s = 0 then s.refuseHeader .queueFull kind tag len
      else if len = 4 then s.acceptCommand ⟨kind, tag, []⟩
      else s.setLink { s.link with framing := .bodyCommand kind tag len [] } := by
  subst hlen
  refine (if_neg (by simpa [HeaderUnframed, or_assoc] using hok)).trans ((if_pos hk).trans ?_)
  cases hn : commandLength kind with
  | none => rfl
  | some n => simp [eq_comm]

/-- R3, check 6, and what an admitted stream header does. -/
theorem judgeHeader_stream (hlen : lo.toNat + 256 * hi.toNat = len) (hok : ¬ HeaderUnframed kind len) (hk : ¬ 0x40 ≤ kind.toNat) :
    s.judgeHeader kind tag lo hi =
      if freeBytes s < len then (s.setLink { s.link with framing := .skipRest }).raise .intakeOverrun
      else if len = 4 then s.enterRing ⟨kind, tag, []⟩
      else s.setLink { s.link with framing := .bodyStream kind tag len [] } := by
  subst hlen
  exact (if_neg (by simpa [HeaderUnframed, or_assoc] using hok)).trans (if_neg hk)

/-! ### A whole command -/

/-- R11: a STREAM_RESET empties the ring and begins a stream hold as it is accepted. -/
theorem acceptCommand_streamReset (hr : r.kind = kindStreamReset) :
    s.acceptCommand r = { s with
      link := { s.link with framing := .between }
      ring := []
      cmd := { s.cmd with streamHold := s.cmd.streamHold + 1, queued := s.cmd.queued ++ [r] } } := by
  simp only [State.acceptCommand, if_pos hr]; rfl

/-- R8: any other command is queued, and that is all. -/
theorem acceptCommand_other (hr : r.kind ≠ kindStreamReset) :
    s.acceptCommand r = { s with
      link := { s.link with framing := .between }
      cmd := { s.cmd with queued := s.cmd.queued ++ [r] } } := by
  simp only [State.acceptCommand, if_neg hr]; rfl

end Sys2Proof.Machine
end

section

open Sys2Proof Sys2Proof.Machine

/-- Settles O5: the byte is counted and the header judged, and each band of headers has its equation. -/
theorem headerIsJudgedInOrder : Obligations.HeaderIsJudgedInOrder := by
  intro s kind tag lo hi hsel hf len go refuse
  rw [exec_recordHeader_fourth hsel hf]
  refine congrArg _ ?_
  by_cases hbad : HeaderUnframed kind len
  · rw [judgeHeader_unframed rfl hbad, if_pos hbad]
    rfl
  rw [if_neg hbad]
  by_cases hk : 0x40 ≤ kind.toNat
  · rw [judgeHeader_command rfl hbad hk, if_pos hk, freeSlots_countByte]
    -- Checks 3 to 5 and their refusals are the same on both sides; an admitted command is left.
    refine if_congr Iff.rfl rfl (if_congr Iff.rfl rfl (if_congr Iff.rfl rfl ?_))
    by_cases h4 : len = 4
    · rw [if_pos h4, if_neg (not_not.2 h4)]
      by_cases hreset : kind = 0x47
      · rw [if_pos hreset, acceptCommand_streamReset hreset]
        rfl
      · rw [if_neg hreset, acceptCommand_other hreset]
        rfl
    · rw [if_neg h4, if_pos h4]
      rfl
  · rw [judgeHeader_stream rfl hbad hk, if_neg hk, freeBytes_countByte]
    rfl

end

section
/-! PROOFS. Chapter 2: unloading and selecting a face, the style stack and the baseline shift. Each record is taken, the rule of its kind runs, and the
record leaves the ring; the statements write the ring first, so each outcome has a rule that brings the release forward. -/

namespace Sys2Proof.Machine

open Sys2Proof

variable {s : State} {r : Record} {rest : List Record}

/-! ### The record leaves the ring after its outcome -/

theorem release_setFaces (hring : s.ring = r :: rest) (t : FaceTable) : (s.setFaces t).release = { s with ring := rest, faces := t } :=
  release_of_ring (s := s.setFaces t) hring

theorem release_faceFault (hring : s.ring = r :: rest) (why : FaceReason) (h n : Nat) :
    (s.faceFault why r h n).release = State.faceFault { s with ring := rest } why r h n :=
  release_of_ring (s := s.faceFault why r h n) hring

theorem release_setFaces_raise (hring : s.ring = r :: rest) (t : FaceTable) (e : EdgeEvent) :
    ((s.setFaces t).raise e).release = withEvent { s with ring := rest, faces := t } e :=
  release_of_ring (s := (s.setFaces t).raise e) hring

/-! ### A record of one fixed length is taken -/

/-- A body of `n` bytes makes the one length `n + 4` that suits the record's kind. -/
theorem length_beq_of_body {n : Nat} (hlen : r.body.length = n) : (r.length == n + 4) = true :=
  beq_iff_eq.2 (congrArg (· + 4) hlen)

theorem takeRecord_anywhere_of_body {kind : Byte} {n : Nat} {rule : Record → State} (h : Takes s r rest) (hk : r.kind = kind)
    (hlen : r.body.length = n) : takeRecord s kind (· == n + 4) false rule = rule r :=
  takeRecord_rule h hk (length_beq_of_body hlen) (.inl rfl)

theorem takeRecord_inPage_of_body {kind : Byte} {n : Nat} {rule : Record → State} (h : TakesInPage s r rest) (hk : r.kind = kind)
    (hlen : r.body.length = n) : takeRecord s kind (· == n + 4) true rule = rule r :=
  takeRecord_inPage h hk (length_beq_of_body hlen)

/-! ### The checks of a selection -/

/-- R25: the four outcomes of the checks; handle 0 is in range and selects the null face. -/
theorem selectRefusal_eq (t : FaceTable) (h : Nat) :
    selectRefusal t h =
      if h = 0 then none
      else if 31 < h then some .range
      else if (t.face h).isSome = true then none
      else some .absent := by
  unfold selectRefusal
  by_cases h0 : h = 0
  · subst h0
    rfl
  · cases t.face h <;> simp [h0]

/-! ### The clamp of a shift -/

section
variable {lo hi n : Int}

theorem clampInt_of_lt (h : n < lo) : clampInt lo hi n = lo := if_pos h

theorem clampInt_of_gt (hlo : ¬ n < lo) (hhi : hi < n) : clampInt lo hi n = hi := (if_neg hlo).trans (if_pos hhi)

theorem clampInt_of_within (hlo : ¬ n < lo) (hhi : ¬ hi < n) : clampInt lo hi n = n := (if_neg hlo).trans (if_neg hhi)

end

/-- R31: of the shift kept and the shift sent, an event tells only that they differ. -/
theorem release_setFaces_raiseIf (hring : s.ring = r :: rest) (t : FaceTable) (kept sent : Int) (e : EdgeEvent) :
    ((s.setFaces t).raiseIf (kept != sent) e).release =
      if kept = sent then { s with ring := rest, faces := t } else withEvent { s with ring := rest, faces := t } e := by
  by_cases heq : kept = sent
  · rw [if_pos heq, bne_eq_false_iff_eq.2 heq]
    exact release_setFaces hring t
  · rw [if_neg heq, bne_iff_ne.2 heq]
    exact release_setFaces_raise hring t e

end Sys2Proof.Machine
end

section

open Sys2Proof Sys2Proof.Machine

/-- Settles O9: the checks stand in the same order on both sides, and the record leaves the ring in each outcome. -/
theorem faceUnloadOutcomes : Obligations.FaceUnloadOutcomes := by
  intro s r rest htakes hkind hlen h done
  refine congrArg Host.Outcome.next ((takeRecord_anywhere_of_body htakes hkind hlen).trans ?_)
  have hring := htakes.1
  rw [release_faceFault hring, release_faceFault hring, release_setFaces hring, setFace_eq]
  exact if_congr (by simp [h]) rfl (if_congr (by simp [h]) rfl rfl)

/-- Settles O10: each outcome of the checks decides what the record does. -/
theorem faceSelectOutcomes : Obligations.FaceSelectOutcomes := by
  intro s r rest hpage hkind hlen h done
  refine congrArg Host.Outcome.next ((takeRecord_inPage_of_body hpage hkind hlen).trans ?_)
  have hring := hpage.1
  have hcheck : selectRefusal s.faces (r.u8 4) = _ := selectRefusal_eq s.faces h
  by_cases hnull : h = 0
  · rw [if_pos hnull] at hcheck ⊢
    rw [hcheck, ← hnull]
    exact release_setFaces hring _
  rw [if_neg hnull] at hcheck ⊢
  by_cases hrange : 31 < h
  · rw [if_pos hrange] at hcheck ⊢
    rw [hcheck]
    exact release_faceFault hring ..
  rw [if_neg hrange] at hcheck ⊢
  by_cases hpresent : (s.faces.face h).isSome = true
  · rw [if_pos hpresent] at hcheck ⊢
    rw [hcheck]
    exact release_setFaces hring _
  · rw [if_neg hpresent] at hcheck ⊢
    rw [hcheck]
    exact release_faceFault hring ..

/-- Settles O11: a push by the depth of the stack, a pop by its top, and a shift by the band of the clamp that the signed field lies in. -/
theorem styleStackAndShift : Obligations.StyleStackAndShift := by
  intro s r rest hpage done z shifted
  have hring := hpage.1
  refine ⟨fun hkind hlen => ?push, fun hkind hlen => ?pop, fun hkind hlen => ?shift⟩ <;>
    refine congrArg Host.Outcome.next ((takeRecord_inPage_of_body hpage hkind hlen).trans ?_)
  case push => rw [release_setFaces hring, release_setFaces_raise hring]
  case pop =>
    cases hstack : s.faces.stack with
    | nil => exact release_setFaces_raise hring _ _
    | cons top below => exact release_setFaces hring _
  case shift =>
    have hsent : r.i16 4 = z := signed_u16 r 4
    simp only [release_setFaces_raiseIf hring, hsent]
    by_cases hlow : z < -64
    · rw [clampInt_of_lt hlow, if_pos hlow, if_neg (by omega)]
    rw [if_neg hlow]
    by_cases hhigh : 64 < z
    · rw [clampInt_of_gt hlow hhigh, if_pos hhigh, if_neg (by omega)]
    · rw [clampInt_of_within hlow hhigh, if_neg hhigh, if_pos rfl]

end

section
/-! PROOFS. Chapter 3: beginning, closing and dropping a glyph table. As in chapter 2, each outcome has a rule that brings the record's release forward;
the kern values of a TABLE_BEGIN are compared with those sent, one by one. -/

namespace Sys2Proof.Machine

open Sys2Proof

variable {s : State} {r : Record} {rest : List Record}

/-! ### The record leaves the ring after its outcome -/

theorem refuseTable_of_ring (hring : s.ring = r :: rest) (why : TableReason) (n : Nat) :
    s.refuseTable why r n = State.tableFault { s with ring := rest } why r (r.u8 4) n :=
  release_of_ring (s := s.tableFault why r (r.u8 4) n) hring

theorem release_setTable (hring : s.ring = r :: rest) (id : Nat) (t : GlyphTable) :
    (s.setTable id t).release = { s with ring := rest, glyphs := s.glyphs.setIfInBounds id t } := by
  rw [setTable_eq]
  exact release_of_ring (s := s.setGlyphs _) hring

/-- An event that tells whether a value moved is raised, or not, the same once the record is released. -/
theorem release_raiseIf_bne {α : Type} [BEq α] [LawfulBEq α] [DecidableEq α] (s : State) (kept sent : α) (e : EdgeEvent) :
    (s.raiseIf (kept != sent) e).release = if kept = sent then s.release else withEvent s.release e := by
  by_cases heq : kept = sent
  · rw [if_pos heq, bne_eq_false_iff_eq.2 heq]
    rfl
  · rw [if_neg heq, bne_iff_ne.2 heq]
    rfl

/-! ### The checks of a TABLE_BEGIN -/

theorem tableBeginRefusal_of_none {id : Nat} (htable : s.glyphs[id]? = none) (budget : Nat) : tableBeginRefusal s id budget = some .range := by
  simp only [tableBeginRefusal, State.tableAt, htable]

theorem tableBeginRefusal_of_some {id : Nat} {t : GlyphTable} (htable : s.glyphs[id]? = some t) (budget : Nat) :
    tableBeginRefusal s id budget =
      if t.state ≠ .empty then some .notEmpty
      else if 786432 < (s.glyphs.toList.map (·.budget)).sum + budget then some .noRoom
      else none := by
  simp only [tableBeginRefusal, State.tableAt, htable]
  rfl

/-! ### The kern values of a TABLE_BEGIN -/

section
variable {lo hi : Int}

theorem clampInt_eq_max_min (hle : lo ≤ hi) (n : Int) : clampInt lo hi n = max lo (min hi n) := by
  by_cases hlo : n < lo
  · rw [clampInt_of_lt hlo]
    omega
  by_cases hhi : hi < n
  · rw [clampInt_of_gt hlo hhi]
    omega
  · rw [clampInt_of_within hlo hhi]
    omega

theorem clampInt_eq_self_iff (hle : lo ≤ hi) (n : Int) : clampInt lo hi n = n ↔ lo ≤ n ∧ n ≤ hi := by
  rw [clampInt_eq_max_min hle]
  omega

end

/-- 3.3: a kern value is sent as a signed number of two bytes. -/
theorem sentKern_eq (r : Record) :
    sentKern r = (List.range 256).map fun k => ((r.byte (10 + 2 * k) ++ r.byte (9 + 2 * k) : BitVec 16)).toInt := by
  refine List.map_congr_left fun k _ => (signed_u16 r (9 + 2 * k)).trans ?_
  rw [show 9 + 2 * k + 1 = 10 + 2 * k by omega]

/-- R39: each kern value is clamped by itself. -/
theorem clampedKern_eq {sent : Nat → Int} (hsent : sentKern r = (List.range 256).map sent) :
    clampedKern r = (List.range 256).map fun k => max (-512) (min 511 (sent k)) := by
  rw [clampedKern, hsent, List.map_map]
  exact List.map_congr_left fun k _ => clampInt_eq_max_min (by decide) (sent k)

/-- R39: the clamp moves no value exactly if every value sent lies in the range. -/
theorem clampedKern_eq_sentKern_iff {sent : Nat → Int} (hsent : sentKern r = (List.range 256).map sent) :
    clampedKern r = sentKern r ↔ ((List.range 256).all fun k => decide (-512 ≤ sent k ∧ sent k ≤ 511)) = true := by
  rw [clampedKern, hsent, List.map_map, List.map_inj_left, List.all_eq_true]
  refine forall₂_congr fun k _ => ?_
  rw [decide_eq_true_iff]
  exact clampInt_eq_self_iff (by decide) (sent k)

/-! ### The faces that name a table -/

theorem namedByFace_eq (t : FaceTable) (id : Nat) :
    namedByFace t id = t.entries.toList.any fun e => e.any fun f => f.table == id := by
  refine congrArg (t.entries.toList.any ·) (funext fun e => ?_)
  cases e <;> rfl

end Sys2Proof.Machine
end

section

open Sys2Proof Sys2Proof.Machine

/-- Settles O12: each outcome of the checks decides what the record does; of a table begun, the event tells only whether a kern value moved. -/
theorem tableBeginIsCheckedInOrder : Obligations.TableBeginIsCheckedInOrder := by
  intro s r rest htakes hkind hlen id budget sent done
  refine congrArg Host.Outcome.next ((takeRecord_anywhere_of_body htakes hkind hlen).trans ?_)
  have hring := htakes.1
  have hsent : sentKern r = (List.range 256).map sent := sentKern_eq r
  cases htable : s.glyphs[id]? with
  | none =>
    rw [tableBeginRefusal_of_none htable]
    exact refuseTable_of_ring hring _ _
  | some t =>
    rw [tableBeginRefusal_of_some htable]
    dsimp only
    by_cases hused : t.state ≠ .empty
    · rw [if_pos hused, if_pos hused]
      exact refuseTable_of_ring hring _ _
    rw [if_neg hused, if_neg hused]
    by_cases hroom : 786432 < (s.glyphs.toList.map (·.budget)).sum + budget
    · rw [if_pos hroom, if_pos hroom]
      exact refuseTable_of_ring hring _ _
    rw [if_neg hroom, if_neg hroom]
    dsimp only
    rw [release_raiseIf_bne, release_setTable hring]
    refine (if_congr (clampedKern_eq_sentKern_iff hsent) rfl rfl).trans ?_
    rw [clampedKern_eq hsent]

/-- Settles O15: by the table that the id names, and its state. A READY table is not EMPTY, so a drop may ask for either first. -/
theorem tableEndAndDrop : Obligations.TableEndAndDrop := by
  intro s r rest htakes hlen id done become
  have hring := htakes.1
  refine ⟨fun hkind => ?tableEnd, fun hkind => ?tableDrop⟩ <;>
    refine congrArg Host.Outcome.next ((takeRecord_anywhere_of_body htakes hkind hlen).trans ?_) <;>
    simp only [State.tableAt, refuseTable_of_ring hring, release_setTable hring]
  case tableEnd =>
    cases htable : s.glyphs[id]? with
    | none => rfl
    | some t => exact ite_not ..
  case tableDrop =>
    cases htable : s.glyphs[id]? with
    | none => rfl
    | some t =>
      dsimp only
      by_cases hempty : t.state = .empty
      · rw [if_neg (by simp [hempty]), if_pos hempty, if_pos hempty]
        exact release_of_ring hring
      · rw [if_neg hempty, if_neg hempty, namedByFace_eq]
        exact if_congr (by rw [Bool.and_eq_true, decide_eq_true_iff]) rfl rfl

end

section
/-! PROOFS. Chapter 9: a REFRESH_REQUEST. The mode byte and the clamp each have an equation in the manual's terms; the command's outcome is then read off the
SHOWN plane and the mode byte, in the order of the checks. -/

namespace Sys2Proof.Machine

open Sys2Proof

variable {s : State} {r : Record} {rest : List Record}

/-- 9.7: the three modes a REFRESH_REQUEST may send. -/
theorem modeOf_eq (n : Nat) :
    modeOf n = if n = 0 then some .full else if n = 1 then some .grey else if n = 2 then some .fast else none := by
  match n with
  | 0 | 1 | 2 => rfl
  | n + 3 => simp [modeOf]

/-- R165: PARAM_CLAMPED is raised where one of the four values lies beyond the panel. -/
theorem raiseIf_requestClamped (s : State) (r : Record) :
    s.raiseIf (requestClamped r) .paramClamped =
      if 29 < r.u8 4 ∨ 39 < r.u8 5 ∨ 29 < r.u8 6 ∨ 39 < r.u8 7 then withEvent s .paramClamped else s :=
  if_congr (by simp [requestClamped, or_assoc]) rfl rfl

/-! ### The outcomes of R164, in order -/

/-- R164, check 1: no plane is SHOWN. -/
theorem exec_refreshRequest_noPage (h : Commands s r rest) (hk : r.kind = kindRefreshRequest)
    (hshown : (takenFrom s rest).planes.find .shown = none) :
    exec .refreshRequest s = .next ((takenFrom s rest).commandRefused .noPage r.kind r.tag (r.u8 8) 0) := by
  refine congrArg Host.Outcome.next ((executeReleasing_of_commands h hk _).trans ?_)
  simp only [hshown]

/-- R164, check 2: the mode byte names no mode. -/
theorem exec_refreshRequest_badMode {i : PlaneId} (h : Commands s r rest) (hk : r.kind = kindRefreshRequest)
    (hshown : (takenFrom s rest).planes.find .shown = some i) (hmode : modeOf (r.u8 8) = none) :
    exec .refreshRequest s = .next ((takenFrom s rest).commandRefused .badMode r.kind r.tag (r.u8 8) 0) := by
  refine congrArg Host.Outcome.next ((executeReleasing_of_commands h hk _).trans ?_)
  simp only [hshown, hmode]

/-- R165: past both checks, the request arrives for the rectangle clamped. -/
theorem exec_refreshRequest_arrives {i : PlaneId} {mode : Mode} (h : Commands s r rest) (hk : r.kind = kindRefreshRequest)
    (hshown : (takenFrom s rest).planes.find .shown = some i) (hmode : modeOf (r.u8 8) = some mode) :
    exec .refreshRequest s =
      .next (((takenFrom s rest).raiseIf (requestClamped r) .paramClamped).arrive .request mode (requestRect r)) := by
  refine congrArg Host.Outcome.next ((executeReleasing_of_commands h hk _).trans ?_)
  simp only [hshown, hmode]

end Sys2Proof.Machine
end

section

open Sys2Proof Sys2Proof.Machine

/-- Settles O40: by the SHOWN plane, then by the mode byte; each mode has the same arrival. -/
theorem refreshRequestArrives : Obligations.RefreshRequestArrives := by
  intro s r rest hcmd hkind t c0 r0 c1 r1 rect u arrived
  cases hshown : t.planes.find .shown with
  | none =>
    rw [if_pos rfl]
    exact exec_refreshRequest_noPage hcmd hkind hshown
  | some i =>
    rw [if_neg (Option.some_ne_none i)]
    have harrives {mode : Mode} (hmode : modeOf (r.u8 8) = some mode) : exec .refreshRequest s = .next (arrived mode) := by
      rw [exec_refreshRequest_arrives hcmd hkind hshown hmode, raiseIf_requestClamped]
      rfl
    have hmode := modeOf_eq (r.u8 8)
    split_ifs at hmode ⊢
    case pos | pos | pos => exact harrives hmode
    case neg => exact exec_refreshRequest_badMode hcmd hkind hshown hmode

end

section
/-! PROOFS. What a step is made of. Every command but POWER_ON_RESET and SEND_END runs as a chain of moves, each a change of few blocks with the test that
the command makes before it; what all moves keep, every step keeps. -/

namespace Sys2Proof.Machine

open Sys2Proof

/-! ### The moves -/

/-- The edge events that keep no detail. -/
def EdgeEvent.plain : EdgeEvent → Bool
  | .faceFault | .glyphMissing | .tableFault | .noteFault | .commandRefused => false
  | .pageReady | .pageFull | .pageShown | .sequenceError | .recordError | .styleStackError | .framingError | .intakeOverrun
  | .updateFailed | .lateDone | .paramClamped => true

/-- R106, R131, R162 and R163: a flip, short of the grant and the attempt to dispatch that end it. -/
def State.showReady (s : State) (i : PlaneId) : State := (s.setPlanes (flipPlanes s.planes s.lanes i)).flipRequest.supersede

/-- R132: a re-render joins the hold set, whose release, on the eighth, makes no attempt to dispatch yet. -/
def State.holdTiles (s : State) (tiles : List Nat) : State :=
  let s := s.setNotes { s.notes with tiles := tiles.foldr insertNat s.notes.tiles, chain := s.notes.chain + 1 }
  if Config.chainLimit ≤ s.notes.chain then s.queueHold else s

/-- R111: the plane that plays a part becomes FREE. -/
def Planes.freePart (p : Planes) (part : Part) : Planes :=
  match p.find part with
  | none => p
  | some i => p.free i

/-- R130: a held re-render ends: its lines are drawn and its tiles join the hold set. -/
def State.drawHeld (s : State) (h : HeldPaint) : State := (s.redraw h.lines).holdTiles h.tiles

/-- Where a change comes from: an event of the link, a queued command that the Command Unit has taken, or any other event. -/
inductive Origin where
  | link
  | command
  | other

/-- One of the changes that a step is made of, with what its command has tested before it. Only the link changes framing, only it adds to ring and queue,
and only a command in hand can be held. -/
inductive Move (o : Origin) : State → State → Prop
  -- chapter 1
  | intake (s : State) (ho : o = .link) (l : Link) (x q : List Record) (n : Nat) :
      Move o s (((s.setLink l).setRing x).setCmd { s.cmd with queued := q, streamHold := n })
  | reply (s : State) (l : Link) (hl : l.framing = s.link.framing) : Move o s (s.setLink l)
  | release (s : State) : Move o s s.release
  -- chapter 11
  | raise (s : State) (e : EdgeEvent) (he : e.plain = true) : Move o s (s.raise e)
  | faceFault (s : State) (why : FaceReason) (r : Record) (h n : Nat) : Move o s (s.faceFault why r h n)
  | glyphMissing (s : State) (why : GlyphReason) (r : Record) (h n : Nat) : Move o s (s.glyphMissing why r h n)
  | tableFault (s : State) (why : TableReason) (r : Record) (h n : Nat) : Move o s (s.tableFault why r h n)
  | noteFault (s : State) (why : NoteReason) (r : Record) (h n : Nat) : Move o s (s.noteFault why r h n)
  | commandRefused (s : State) (why : CommandReason) (k g : Byte) (h n : Nat) : Move o s (s.commandRefused why k g h n)
  | acknowledge (s : State) (ack : BitVec 16) : Move o s (s.setEvents (s.events.acknowledge ack))
  | params (s : State) (p : Params) (hp : s.params.Safe → p.Safe) : Move o s (s.setParams p)
  | timers (s : State) (settle sweep : Option Deadline) : Move o s (s.setPlanner { s.planner with settle := settle, sweep := sweep })
  | coalesce (s : State) (d : Option Deadline) : Move o s (s.setNotes { s.notes with coalesce := d })
  | tick (s : State) (x : Tick) : Move o s (s.setTick x)
  -- chapter 2
  | select (s : State) (h : Nat) (hok : selectRefusal s.faces h = none) : Move o s (s.setFaces { s.faces with current := h })
  | push (s : State) (hd : s.faces.stack.length < 8) :
      Move o s (s.setFaces { s.faces with stack := (s.faces.current, s.faces.shift) :: s.faces.stack })
  | pop (s : State) (face : Nat) (shift : Int) (rest : List (Nat × Int)) (hs : s.faces.stack = (face, shift) :: rest) :
      Move o s (s.setFaces { s.faces with current := face, shift := shift, stack := rest })
  | shift (s : State) (z : Int) (hz : -64 ≤ z ∧ z ≤ 64) : Move o s (s.setFaces { s.faces with shift := z })
  | sticky (s : State) (a b : Bool) : Move o s (s.setFaces { s.faces with stackError := a, underflow := b })
  | loadFace (s : State) (h : Nat) (f : Face) (hok : faceLoadRefusal s h f = none) :
      Move o s (s.setFaces (s.faces.setFace h (some f)))
  | unloadFace (s : State) (h : Nat) (hc : s.comp.carry = []) (hr : ¬ (h = 0 ∨ 31 < h))
      (hu : ¬ ((s.faces.face h).isSome = true ∧ 0 < useCount s h)) : Move o s (s.setFaces (s.faces.setFace h none))
  -- chapter 3
  | beginTable (s : State) (r : Record) (id : Nat) (budget : Nat) (hok : tableBeginRefusal s id budget = none) :
      Move o s (s.setTable id { state := .loading, budget := budget, fill := 0, glyphs := [], kern := clampedKern r })
  | faultTable (s : State) (id : Nat) (t : GlyphTable) (ht : s.tableAt id = some t) (hs : t.state = .loading) :
      Move o s (s.setTable id { t with state := .faulty })
  | defineGlyph (s : State) (id : Nat) (t : GlyphTable) (r : Record) (g : Glyph) (ht : s.tableAt id = some t)
      (hs : t.state = .loading) (hg : glyphChecked t r = .ok g) :
      Move o s (s.setTable id { t with fill := t.fill + (r.length - 2), glyphs := t.glyphs ++ [g] })
  | endTable (s : State) (id : Nat) (t : GlyphTable) (ht : s.tableAt id = some t) (hs : t.state = .loading) :
      Move o s (s.setTable id { t with state := .ready })
  | dropTable (s : State) (id : Nat) (t : GlyphTable) (ht : s.tableAt id = some t)
      (hn : ¬ (t.state = .ready ∧ namedByFace s.faces id = true)) : Move o s (s.setTable id GlyphTable.empty)
  -- chapters 4 to 6: the Composer and its page
  | place (s : State) (index : Nat) (applied : Bool) : Move o s (s.setComp { s.comp with index := index, applied := applied })
  | appendNew (s : State) (code cls : Nat) (hs : s.comp.state = .composing) (hc : s.comp.carry = [])
      (hn : s.comp.nextOrdinal < 8192) : Move o s ((s.join (s.lookup code cls).1).afterAppend cls).state
  | reappend (s : State) (e : Entry) (rest : List Entry) (hs : s.comp.state = .composing) (hc : s.comp.carry = e :: rest)
      (hn : s.comp.nextOrdinal < 8192) :
      Move o s (((s.setComp { s.comp with carry := rest }).join e).afterAppend e.cls).state
  | pageFull (s : State) (hs : s.comp.state = .composing) : Move o s s.pageFull
  | breakTest (s : State) : Move o s s.breakTest.state
  | endParagraph (s : State) (hs : s.comp.state = .composing) (hc : s.comp.carry = []) : Move o s s.endParagraph.state
  | openParagraph (s : State) (p : Para) (hs : s.comp.state = .composing)
      (hp : p.indent ≤ (match s.composingPage with | none => 0 | some (_, page) => page.frame.width) - 64) :
      Move o s (s.setComp { s.comp with para := some p })
  | closePage (s : State) (hc : s.comp.carry = []) (hb : s.composingPage.isSome = true → s.comp.buffer = []) :
      Move o s s.closePage
  | openPage (s : State) (i : PlaneId) (number : PageNumber) (frame : Frame) (hf : frame.Safe) (hi : s.planes.available = some i)
      (hw : s.comp.state.waiting = false) (hn : s.comp.state = .composing → s.composingPage = none) (hc : s.comp.carry = []) :
      Move o s (s.openPage i number frame)
  | awaitPlane (s : State) (number : PageNumber) (frame : Frame) (hf : frame.Safe)
      (hw : s.comp.state.waiting = false) (hn : s.comp.state = .composing → s.composingPage = none) (hc : s.comp.carry = []) :
      Move o s (s.setComp { s.comp with state := .waitPlane (.opening number frame) })
  | grant (s : State) : Move o s s.grant
  | freeReady (s : State) (i : PlaneId) (hi : s.planes.find .ready = some i) : Move o s (s.setPlanes (s.planes.free i))
  | showReady (s : State) (i : PlaneId) (hi : s.planes.find .ready = some i) : Move o s (s.showReady i)
  | streamReset (s : State) : Move o s (((s.setComp Composer.reset).setFaces
      { s.faces with current := 0, shift := 0, stack := [], stackError := false, underflow := false }).setPlanes
      s.planes.dropComposing |>.setNotes { s.notes with openIds := [] })
  -- chapter 7
  | openNote (s : State) (i : PlaneId) (page : Page) (n : Note) (tone : Nat) (hs : s.comp.state = .composing)
      (hp : s.composingPage = some (i, page)) (hn : n.start = s.comp.nextOrdinal ∧ n.stop = none ∧ n.tone = toneOf n.style tone)
      (hok : noteOpenRefusal s page n.id = none) :
      Move o s ((s.setPlanes (s.planes.setPage i { page with notes := insertNote n page.notes })).setNotes
        { s.notes with openIds := s.notes.openIds ++ [n.id] })
  | closeNote (s : State) (id : Nat) (hs : s.comp.state = .composing) (hid : id ∈ s.notes.openIds) :
      Move o s ((s.mapComposingPage fun page => { page with notes := closeNote s.comp.nextOrdinal id page.notes }).setNotes
        { s.notes with openIds := s.notes.openIds.erase id })
  | paintNote (s : State) (r : Record) (i : PlaneId) (page : Page) (style : NoteStyle) (hp : s.frontPage = some (i, page))
      (hok : paintRefusal (some (i, page)) r = none) :
      Move o s (s.setPlanes (s.planes.setPage i { page with
        notes := insertNote (paintedNote r style page.glyphCount) (eraseNote (r.u16 4) page.notes) }))
  | eraseNote (s : State) (id : Nat) (i : PlaneId) (page : Page) (hp : s.frontPage = some (i, page)) :
      Move o s (s.setPlanes (s.planes.setPage i { page with notes := eraseNote id page.notes }))
  | drawHeld (s : State) (h : HeldPaint) (hp : s.frontPage.isSome = true) (ht : ∀ k ∈ h.tiles, k < 1200) : Move o s (s.drawHeld h)
  | hold (s : State) (ho : o = .command) (h : HeldPaint) (i : PlaneId) (hi : s.planes.find .shown = some i) (hc : sendConflict s.lanes i h.tiles = true)
      (ht : ∀ k ∈ h.tiles, k < 1200) : Move o s (s.setCmd { s.cmd with executing := some h })
  | drawTested (s : State) (h : HeldPaint) (he : s.cmd.executing = some h) (hp : s.frontPage.isSome = true) :
      Move o s ((s.setCmd { s.cmd with executing := none }).drawHeld h)
  | unhold (s : State) : Move o s (s.setCmd { s.cmd with executing := none })
  | queueHold (s : State) : Move o s s.queueHold
  -- chapters 9 and 10
  | tiles (s : State) (v : Vector Tile 1200)
      (hv : (∀ t ∈ s.planner.tiles.toList, t.residue ≤ 255) → ∀ t ∈ v.toList, t.residue ≤ 255) :
      Move o s (s.setPlanner { s.planner with tiles := v })
  | request (s : State) (source : Source) (mode : Mode) (q : Rect) (hp : (s.planes.find .shown).isSome = true) :
      Move o s (s.enqueue source mode q)
  | clearQueue (s : State) : Move o s (s.setPlanner { s.planner with queue := [], flipCounter := 0, fullNext := true })
  | dispatch (s t : State) (floor : Nat) (h : dispatchAbove floor s = some t) : Move o s t
  | receive (s : State) (x : Option (List Byte))
      (hx : (∀ got, s.lanes.rx = some got → got.length ≤ 2) → ∀ got, x = some got → got.length ≤ 2) : Move o s (s.setRx x)
  | duration (s : State) (m : Mode) (d : Tick) : Move o s (s.setLanes (s.lanes.setLast m d))
  | finish (s : State) (i : Fin 4) (hw : s.lanes.lane[i].state = .waiting) :
      Move o s ((s.setPlanes (if s.planes.showing.contains i then { s.planes with showPending := false, showing := [] } else s.planes)).setLanes
        (s.lanes.setState i .idle))
  | timeout (s : State) (i : Fin 4) (hw : s.lanes.lane[i].state = .waiting) :
      Move o s ((s.setPlanes { s.planes with showing := s.planes.showing.erase i }).setLanes (s.lanes.setState i .faulted))
  | count (s : State) : Move o s (s.setLanes { s.lanes with lane := mapVector (fun _ x => x.count) s.lanes.lane })
  | abort (s : State) (he : s.cmd.executing = none) :
      Move o s ((s.setLanes s.lanes.abort).setPlanes (Planes.freePart { s.planes with showing := [] } .retiring))

/-- A chain of moves. -/
abbrev Moves (o : Origin) : State → State → Prop := Relation.ReflTransGen (Move o)

variable {o : Origin}

theorem Moves.refl (s : State) : Moves o s s := Relation.ReflTransGen.refl

theorem Move.moves {s t : State} (m : Move o s t) : Moves o s t := Relation.ReflTransGen.single m

/-- What every move keeps, a chain of them keeps. -/
theorem Moves.keep {P : State → Prop} (hP : ∀ s t, Move o s t → P s → P t) {s t : State} (m : Moves o s t) (h : P s) : P t := by
  induction m with
  | refl => exact h
  | tail _ m ih => exact hP _ _ m ih

end Sys2Proof.Machine
end

section
/-! PROOFS. The chain of moves that each command makes. -/

namespace Sys2Proof.Machine

open Sys2Proof

/-! ### Shared operations -/

variable {o : Origin} {s : State}

theorem raise_moves {e : EdgeEvent} (he : e.plain = true) : Moves o s (s.raise e) := (Move.raise s e he).moves

theorem raiseIf_moves (c : Bool) {e : EdgeEvent} (he : e.plain = true) : Moves o s (s.raiseIf c e) := by
  cases c with
  | false => exact Moves.refl s
  | true => exact raise_moves he

theorem release_moves : Moves o s s.release := (Move.release s).moves

theorem raise_release_moves {e : EdgeEvent} (he : e.plain = true) : Moves o s (s.raise e).release :=
  (raise_moves he).trans release_moves

theorem attemptDispatch_moves (s : State) : Moves o s (attemptDispatch s) :=
  attemptDispatch_induct (P := Moves o s) (fun t t' m ht => m.tail (Move.dispatch t t' _ ht)) (Moves.refl s)

theorem arrive_moves (source : Source) (mode : Mode) (q : Rect) (hp : (s.planes.find .shown).isSome = true) :
    Moves o s (s.arrive source mode q) :=
  (Move.request s source mode q hp).moves.trans (attemptDispatch_moves _)

theorem releaseHold_moves (s : State) : Moves o s s.releaseHold := by
  unfold State.releaseHold
  split
  · exact (Move.queueHold s).moves
  · exact (Move.queueHold s).moves.trans (attemptDispatch_moves _)

theorem flip_moves {i : PlaneId} (hi : s.planes.find .ready = some i) : Moves o s (s.flip i) :=
  ((Move.showReady s i hi).moves.tail (Move.grant _)).trans (attemptDispatch_moves _)

theorem pageFind_isSome {p : Planes} {part : Part} : (p.pageOf part).isSome = true ↔ (p.find part).isSome = true := by
  unfold Planes.pageOf
  split
  · next h => simp [h]
  · next i h =>
    have := Planes.part_of_find p i h
    cases hh : (p.get i).held with
    | none => simp [Plane.part, hh] at this
    | some x => simp [h]

/-- R132: to hold tiles, and release them at the limit, is to join the hold set and attempt dispatch. -/
theorem joinHold_moves (tiles : List Nat) : Moves o (s.holdTiles tiles) (s.joinHold tiles) := by
  unfold State.holdTiles State.joinHold
  dsimp only
  split
  · unfold State.releaseHold
    split
    · exact Moves.refl _
    · exact attemptDispatch_moves _
  · exact Moves.refl _

/-- R130: a re-render of tiles of the panel is held, or drawn. -/
theorem rerender_moves (h : HeldPaint) (ht : ∀ k ∈ h.tiles, k < 1200) : Moves .command s (s.rerender h) := by
  unfold State.rerender
  split
  · exact Moves.refl s
  · next i page hp =>
    split
    · next hc => exact (Move.hold s rfl h i (Planes.pageOf_eq_some _ _ hp).1 hc ht).moves
    · exact (Move.drawHeld s h (by rw [hp]; rfl) ht).moves.trans (joinHold_moves _)

/-! ### Taking a record or a command -/

theorem takes_of_takable {r : Record} (h : s.takable = some r) : ∃ rest, Takes s r rest := by
  unfold State.takable at h
  split at h
  · cases h
  · next hc =>
    simp only [Bool.or_eq_true, bne_iff_ne, ne_eq, Bool.not_eq_true', not_or, Bool.not_eq_true, Decidable.not_not,
      Bool.not_eq_false, List.isEmpty_iff] at hc
    obtain ⟨⟨hw, hh⟩, hcarry⟩ := hc
    obtain ⟨rest, hring⟩ := List.head?_eq_some_iff.1 h
    exact ⟨rest, hring, hw, hh, hcarry⟩

theorem takes_of_headOf {kind : Byte} {r : Record} (h : s.headOf kind = some r) : r.kind = kind ∧ ∃ rest, Takes s r rest := by
  obtain ⟨ht, hk⟩ := Option.filter_eq_some_iff.1 h
  exact ⟨by simpa using hk, takes_of_takable ht⟩

theorem composing_of_not_waiting (hw : s.comp.state.waiting = false) (hi : s.comp.state ≠ .idle) : s.comp.state = .composing := by
  cases h : s.comp.state with
  | idle => exact absurd h hi
  | composing => rfl
  | waitPlane p => rw [h] at hw; cases hw

/-- R54: a record is discarded, or goes to the rule of its kind. -/
theorem takeRecord_moves {kind : Byte} {lengthOk : Nat → Bool} {content : Bool} {rule : Record → State}
    (hrule : ∀ r rest, Takes s r rest → (content = true → s.comp.state = .composing) → Moves o s (rule r)) :
    Moves o s (takeRecord s kind lengthOk content rule) := by
  unfold takeRecord
  split
  · exact Moves.refl s
  · next r hr =>
    obtain ⟨-, rest, ht⟩ := takes_of_headOf hr
    split
    · exact raise_release_moves rfl
    · split
      · exact raise_release_moves rfl
      · next hc =>
        refine hrule r rest ht fun hcontent => composing_of_not_waiting ht.2.1 fun hidle => hc ?_
        simp [hcontent, hidle]

theorem commands_of_commandOf {kind : Byte} {r : Record} (h : s.commandOf kind = some r) :
    r.kind = kind ∧ ∃ rest, Commands s r rest := by
  unfold State.commandOf at h
  split at h
  · cases h
  · next he =>
    obtain ⟨hq, hk⟩ := Option.filter_eq_some_iff.1 h
    obtain ⟨rest, hr⟩ := List.head?_eq_some_iff.1 hq
    exact ⟨by simpa using hk, rest, hr, by simpa using he⟩

/-- The state once the oldest command has left the queue, with the stream hold count that its execution leaves. -/
def State.taking (s : State) (rest : List Record) (hold : Nat) : State := s.setCmd { s.cmd with queued := rest, streamHold := hold }

/-- The commands of the link. -/
def Instr.ofLink : Instr → Bool
  | .transferBegin | .transferEnd _ | .recordHeader _ | .streamRecordEntry _ | .commandWhole _ | .inboundByte _ => true
  | _ => false

/-- What a step makes of its moves: they follow one another from the state itself, or, for a command that the Command Unit takes, from the state without it. -/
inductive Made (s t : State) : Prop
  | link (hc : ∃ c : Instr, Instr.ofLink c = true ∧ exec c s = .next t) (m : Moves .link s t)
  | command (r : Record) (rest : List Record) (hr : Commands s r rest)
      (m : Moves .command (s.taking rest (if r.kind = kindStreamReset then s.cmd.streamHold - 1 else s.cmd.streamHold)) t)
  | other (m : Moves .other s t)

/-- R9: a command leaves the queue, and then its rule acts. -/
theorem execute_made {kind : Byte} {rule : Record → State → State} (hk : kind ≠ kindStreamReset)
    (hrule : ∀ r t, t.cmd.executing = none → Moves .command t (rule r t)) : Made s (s.execute kind rule) := by
  unfold State.execute
  split
  · exact .other (Moves.refl s)
  · next r hr =>
    obtain ⟨rfl, rest, hc⟩ := commands_of_commandOf hr
    refine .command r rest hc ?_
    rw [if_neg hk, dequeue_of_commands hc]
    exact hrule r _ hc.2

theorem executeReleasing_made {kind : Byte} {rule : Record → State → State} (hk : kind ≠ kindStreamReset) (hrule : ∀ r t, Moves .command t (rule r t)) :
    Made s (s.executeReleasing kind rule) :=
  execute_made hk fun r t _ => (releaseHold_moves t).trans (hrule r _)

/-! ### Chapter 1 -/

theorem setLink_moves (l : Link) : Moves .link s (s.setLink l) := (Move.intake s rfl l s.ring s.cmd.queued s.cmd.streamHold).moves

theorem refuseHeader_moves (why : CommandReason) (kind tag : Byte) (len : Nat) : Moves .link s (s.refuseHeader why kind tag len) :=
  (setLink_moves _).tail (Move.commandRefused _ why kind tag _ _)

theorem enterRing_moves (r : Record) : Moves .link s (s.enterRing r) :=
  (Move.intake s rfl { s.link with framing := .between } (s.ring ++ [r]) s.cmd.queued s.cmd.streamHold).moves

theorem acceptCommand_moves (r : Record) : Moves .link s (s.acceptCommand r) := by
  by_cases hr : r.kind = kindStreamReset
  · rw [acceptCommand_streamReset hr]
    exact (Move.intake s rfl { s.link with framing := .between } [] (s.cmd.queued ++ [r]) (s.cmd.streamHold + 1)).moves
  · rw [acceptCommand_other hr]
    exact (Move.intake s rfl { s.link with framing := .between } s.ring (s.cmd.queued ++ [r]) s.cmd.streamHold).moves

theorem judgeHeader_moves (kind tag lo hi : Byte) : Moves .link s (s.judgeHeader kind tag lo hi) := by
  have skip {e : EdgeEvent} (he : e.plain = true) : Moves .link s ((s.setLink { s.link with framing := .skipRest }).raise e) :=
    (setLink_moves _).trans (raise_moves he)
  by_cases hbad : HeaderUnframed kind (lo.toNat + 256 * hi.toNat)
  · rw [judgeHeader_unframed rfl hbad]
    exact skip rfl
  by_cases hk : 0x40 ≤ kind.toNat
  · rw [judgeHeader_command rfl hbad hk]
    split_ifs
    case pos | pos | pos => exact refuseHeader_moves ..
    case pos => exact acceptCommand_moves _
    case neg => exact setLink_moves _
  · rw [judgeHeader_stream rfl hbad hk]
    split_ifs
    · exact skip rfl
    · exact enterRing_moves _
    · exact setLink_moves _

theorem frameByte_moves (b : Byte) : Moves .link s (s.frameByte b) := by
  unfold State.frameByte
  split
  · split
    · exact Moves.refl s
    · exact setLink_moves _
  · split
    · exact judgeHeader_moves ..
    · exact setLink_moves _
  · split
    · exact enterRing_moves _
    · exact setLink_moves _
  · split
    · exact acceptCommand_moves _
    · exact setLink_moves _
  · exact setLink_moves _
  · exact Moves.refl s

theorem clockByte_moves (b : Byte) : Moves .link s (s.clockByte b) := by
  unfold State.clockByte
  split
  · exact (setLink_moves _).trans (frameByte_moves b)
  · exact Moves.refl s
  · exact Moves.refl s

theorem clockByte_if_moves (c : Bool) (b : Byte) : Moves .link s (if c then s.clockByte b else s) := by
  split
  · exact clockByte_moves b
  · exact Moves.refl s

theorem execTransferBegin_moves {t : State} (h : execTransferBegin s = .next t) : Moves .link s t := by
  cases h
  split
  · exact setLink_moves _
  · exact Moves.refl s
  · exact Moves.refl s

theorem execTransferEnd_moves {n : Nat} {t : State} (h : execTransferEnd n s = .next t) : Moves .link s t := by
  unfold execTransferEnd at h
  split at h
  · cases h
    split
    · exact (setLink_moves _).trans (raiseIf_moves _ rfl)
    · exact setLink_moves _
    · exact Moves.refl s
  · cases h

/-! ### Commands -/

theorem execPageShow_made {t : State} (h : execPageShow s = .next t) : Made s t := by
  cases h
  refine execute_made (by decide) fun r t _ => ?_
  split
  · exact (releaseHold_moves t).tail (Move.commandRefused ..)
  · next i hi =>
    rw [flip_queueHold]
    exact flip_moves hi

theorem execPageDrop_made {t : State} (h : execPageDrop s = .next t) : Made s t := by
  cases h
  refine executeReleasing_made (by decide) fun r t => ?_
  split
  · exact (Move.commandRefused ..).moves
  · next i hi => exact (Move.freeReady t i hi).moves.tail (Move.grant _)

/-- R129: the tiles of a re-render lie on the panel. -/
theorem rerenderTiles_lt (lines : List Line) (idx : List Nat) : ∀ k ∈ rerenderTiles lines idx, k < 1200 := by
  have hrow (l : Line) : ∀ r ∈ l.tileRows, r < 40 := by
    intro r hr
    unfold Line.tileRows at hr
    split at hr
    · have := l.bandHi_le
      simp only [List.mem_range'_1, Config.panelHeight, Config.tileSide] at hr this
      omega
    · simp at hr
  have hrows (l : List Nat) (hl : ∀ r ∈ l, r < 40) : ∀ r ∈ l.foldr insertNat [], r < 40 := by
    induction l with
    | nil => simp
    | cons x t ih =>
      intro r hr
      rcases mem_insertNat.1 hr with rfl | hr
      · exact hl _ (by simp)
      · exact ih (fun r hr => hl r (by simp [hr])) r hr
  intro k hk
  obtain ⟨r, hr, hk⟩ := List.mem_flatMap.1 hk
  have hlt : r < 40 := by
    refine hrows _ (fun r hr => ?_) r hr
    obtain ⟨i, -, hi⟩ := List.mem_flatMap.1 hr
    cases hl : lines[i]? with
    | none => simp [hl] at hi
    | some l => exact hrow l r (by simpa [hl] using hi)
  simp only [List.mem_range'_1, Config.tileColumns] at hk
  omega

/-- R127 to R130: once the note list is rewritten, the timers restart and the lines are drawn or held. -/
theorem repaint_moves {r : Record} {i : PlaneId} {page : Page} {notes : List Note} {ranges : List (Nat × Nat)} {n : Nat}
    (hm : Move .command s (s.setPlanes (s.planes.setPage i { page with notes := notes }))) :
    Moves .command s (s.repaint r i page notes ranges n) := by
  have htimers (u : State) : Moves .command u u.restartPaintTimers :=
    (Move.coalesce u (u.deadlineIn u.params.coalescing)).moves.tail
      (Move.timers _ (u.deadlineIn u.params.settle) u.planner.sweep)
  exact (hm.moves.trans (htimers _)).trans (rerender_moves _ (rerenderTiles_lt _ _))

theorem execNotePaint_made {t : State} (h : execNotePaint s = .next t) : Made s t := by
  cases h
  refine execute_made (by decide) fun r t _ => ?_
  split
  · exact (Move.commandRefused ..).moves
  · next i page style hok hp hs =>
    rw [hp] at hok
    have hm (u : State) (hu : u.frontPage = some (i, page)) := Move.paintNote (o := .command) u r i page style hu hok
    exact (raiseIf_moves _ rfl).trans (repaint_moves (hm _ (by unfold State.raiseIf; split <;> exact hp)))
  · exact Moves.refl t

theorem execNoteErase_made {t : State} (h : execNoteErase s = .next t) : Made s t := by
  cases h
  refine execute_made (by decide) fun r t _ => ?_
  split
  · exact (Move.commandRefused ..).moves
  · next i page hp =>
    split
    · exact (Move.commandRefused ..).moves
    · next n _ => exact repaint_moves (Move.eraseNote t n.id i page hp)

theorem execRefreshRequest_made {t : State} (h : execRefreshRequest s = .next t) : Made s t := by
  cases h
  refine executeReleasing_made (by decide) fun r t => ?_
  split
  · exact (Move.commandRefused ..).moves
  · exact (Move.commandRefused ..).moves
  · next hp _ =>
    refine (raiseIf_moves _ rfl).trans (arrive_moves _ _ _ ?_)
    unfold State.raiseIf
    split <;> exact hp ▸ rfl

theorem execEventAck_made {t : State} (h : execEventAck s = .next t) : Made s t := by
  cases h
  refine executeReleasing_made (by decide) fun r t => ?_
  dsimp only
  split
  · exact (Move.acknowledge t _).moves.tail (Move.sticky _ false false)
  · exact (Move.acknowledge t _).moves

theorem execQuery_made {t : State} (h : execQuery s = .next t) : Made s t := by
  cases h
  exact executeReleasing_made (by decide) fun r t => (Move.reply t { t.link with reply := queryReply t r, replaced := true } rfl).moves

/-- R11: the stream hold count takes no part in a release of the hold set. -/
theorem dispatchUpTo_setCmd (n : Nat) (s : State) (c : CommandUnit) : dispatchUpTo n (s.setCmd c) = (dispatchUpTo n s).setCmd c := by
  induction n generalizing s with
  | zero => rfl
  | succ n ih =>
    have h : dispatchOnce (s.setCmd c) = (dispatchOnce s).map fun t => t.setCmd c := by
      unfold dispatchOnce dispatchAbove
      simp only [State.setCmd_lanes, State.setCmd_planes, State.setCmd_params, State.setCmd_planner]
      split <;> rfl
    unfold dispatchUpTo
    rw [h]
    cases dispatchOnce s with
    | none => rfl
    | some t => exact ih t

theorem releaseHold_setCmd (s : State) (c : CommandUnit) : (s.setCmd c).releaseHold = s.releaseHold.setCmd c := by
  have hqueue : (s.setCmd c).queueHold = s.queueHold.setCmd c := by
    unfold State.queueHold
    rw [State.setCmd_notes]
    split <;> rfl
  unfold State.releaseHold
  rw [State.setCmd_notes, hqueue]
  split
  · rfl
  · exact dispatchUpTo_setCmd 4 _ c

theorem execStreamReset_made {t : State} (h : execStreamReset s = .next t) : Made s t := by
  cases h
  unfold State.executeReleasing State.execute
  split
  · exact .other (Moves.refl s)
  · next r hr =>
    obtain ⟨hk, rest, hc⟩ := commands_of_commandOf hr
    refine .command r rest hc ?_
    rw [if_pos hk, dequeue_of_commands hc]
    refine (releaseHold_moves _).trans ?_
    rw [State.taking, releaseHold_setCmd]
    dsimp only
    rw [releaseHold_setCmd]
    exact (Move.streamReset _).moves

end Sys2Proof.Machine
end

section
/-! PROOFS. The chain of moves that each command makes: PANEL_RESET, the records of the Composer, the lanes and the timers. -/

namespace Sys2Proof.Machine

open Sys2Proof

variable {o : Origin} {s : State}

/-! ### PANEL_RESET -/

theorem mem_mapVector {α : Type} {n : Nat} {f : Nat → α → α} {v : Vector α n} {y : α} (h : y ∈ (mapVector f v).toList) :
    ∃ k, ∃ x ∈ v.toList, y = f k x := by
  obtain ⟨k, hk, rfl⟩ := List.mem_iff_getElem.1 h
  have hkn : k < n := by simpa using hk
  refine ⟨k, v[k], by simp, ?_⟩
  simpa using getElem_mapVector f v k hkn

/-- R182: once every lane is IDLE, none sends. -/
theorem abort_sendsFrom (l : LaneController) (i : PlaneId) : l.abort.sendsFrom i = false := by
  unfold LaneController.sendsFrom LaneController.abort
  rw [List.any_eq_false]
  intro y hy
  obtain ⟨k, x, -, rfl⟩ := mem_mapVector hy
  simp [Lane.sendsFrom]

/-- R110: a RETIRING plane from which no lane sends is freed, and a plane may be granted. -/
theorem retire_moves (hs : ∀ i, s.lanes.sendsFrom i = false) :
    Moves o (s.setPlanes (s.planes.freePart .retiring)) s.retire := by
  unfold State.retire Planes.freePart
  cases s.planes.find .retiring with
  | none => exact Moves.refl s
  | some i =>
    dsimp only
    rw [hs i]
    exact (Move.grant _).moves

theorem mapTiles_residue_le {v : Vector Tile 1200} (q : Rect) {f : Tile → Tile} (hf : ∀ t, t.residue ≤ 255 → (f t).residue ≤ 255)
    (hv : ∀ t ∈ v.toList, t.residue ≤ 255) : ∀ t ∈ (mapTiles q f v).toList, t.residue ≤ 255 := by
  intro y hy
  obtain ⟨k, x, hx, rfl⟩ := mem_mapVector hy
  split
  · exact hf x (hv x hx)
  · exact hv x hx

theorem unknown_residue_le (t : Tile) : t.unknown.residue ≤ 255 := Nat.le_refl _

theorem updated_residue_le (t : Tile) (m : Mode) : (t.updated m).residue ≤ 255 := by
  cases m
  · exact Nat.zero_le _
  · exact Nat.min_le_right _ _
  · exact Nat.min_le_right _ _

theorem abandonTiles_residue_le (l : LaneController) {v : Vector Tile 1200} (hv : ∀ t ∈ v.toList, t.residue ≤ 255) :
    ∀ t ∈ (abandonTiles l v).toList, t.residue ≤ 255 := by
  unfold abandonTiles
  generalize l.lane.toList.filterMap Lane.rect? = rects
  induction rects generalizing v with
  | nil => exact hv
  | cons q t ih => exact ih (mapTiles_residue_le q (fun t _ => unknown_residue_le t) hv)

theorem refreshAll_moves (hp : (s.planes.find .shown).isSome = true) : Moves o s s.refreshAll := by
  unfold State.refreshAll
  dsimp only
  have hm : Moves o s _ := (Move.request s .flip .full wholePanel hp).moves
  split
  · exact hm
  · next t ht => exact hm.tail (Move.dispatch _ t 0 ht)

/-- R182, R113 and R170: what a PANEL_RESET does once the hold set is released. -/
theorem panelReset_moves {v : Vector Tile 1200} (he : s.cmd.executing = none)
    (hv : (∀ t ∈ s.planner.tiles.toList, t.residue ≤ 255) → ∀ t ∈ v.toList, t.residue ≤ 255) :
    Moves o s (
      let u := (s.setPlanner { s.planner with tiles := v }).setLanes s.lanes.abort
      let u := (u.setPlanes { u.planes with showing := [] }).retire
      let u := u.setPlanner { u.planner with queue := [], flipCounter := 0, fullNext := true }
      match u.planes.find .shown with
      | none => u
      | some _ => u.refreshAll) := by
  have habort : Moves o s _ := (Move.tiles s v hv).moves.tail (Move.abort _ he)
  have hretire := habort.trans (retire_moves
    (s := ((s.setPlanner { s.planner with tiles := v }).setLanes s.lanes.abort).setPlanes { s.planes with showing := [] })
    (abort_sendsFrom s.lanes))
  have hclear := hretire.tail (Move.clearQueue _)
  dsimp only
  split
  · exact hclear
  · next hp => exact hclear.trans (refreshAll_moves (hp ▸ rfl))

theorem execPanelReset_made {t : State} (h : execPanelReset s = .next t) : Made s t := by
  cases h
  refine execute_made (by decide) fun r t he => ?_
  have he' : t.queueHold.cmd.executing = none := by
    obtain ⟨q, hq⟩ := queueHold_frame t
    rw [hq]
    exact he
  refine (Move.queueHold t).moves.trans (panelReset_moves he' ?_)
  exact fun hle => abandonTiles_residue_le _ hle

/-! ### Chapter 2 and 3 -/

theorem execFaceLoad_moves {t : State} (h : execFaceLoad s = .next t) : Moves o s t := by
  cases h
  refine takeRecord_moves fun r rest ht _ => ?_
  split
  · exact (Move.faceFault ..).moves.trans release_moves
  · next hok => exact (Move.loadFace s _ _ hok).moves.trans release_moves

theorem execFaceUnload_moves {t : State} (h : execFaceUnload s = .next t) : Moves o s t := by
  cases h
  refine takeRecord_moves fun r rest ht _ => ?_
  obtain ⟨-, -, -, hcarry⟩ := ht
  split
  · exact (Move.faceFault ..).moves.trans release_moves
  · next hr =>
    split
    · exact (Move.faceFault ..).moves.trans release_moves
    · next hu =>
      exact (Move.unloadFace s _ hcarry (by simpa using hr) (by simpa using hu)).moves.trans release_moves

theorem execFaceSelect_moves {t : State} (h : execFaceSelect s = .next t) : Moves o s t := by
  cases h
  refine takeRecord_moves fun r rest ht _ => ?_
  split
  · exact (Move.faceFault ..).moves.trans release_moves
  · next hok => exact (Move.select s _ hok).moves.trans release_moves

theorem execStylePush_moves {t : State} (h : execStylePush s = .next t) : Moves o s t := by
  cases h
  refine takeRecord_moves fun r rest ht _ => ?_
  split
  · next hd => exact (Move.push s hd).moves.trans release_moves
  · exact (Move.sticky s true s.faces.underflow).moves.trans (raise_release_moves rfl)

theorem execStylePop_moves {t : State} (h : execStylePop s = .next t) : Moves o s t := by
  cases h
  refine takeRecord_moves fun r rest ht _ => ?_
  split
  · next face shift rest hs => exact (Move.pop s face shift rest hs).moves.trans release_moves
  · exact (Move.sticky s true true).moves.trans (raise_release_moves rfl)

theorem clampInt_within {lo hi : Int} (h : lo ≤ hi) (n : Int) : lo ≤ clampInt lo hi n ∧ clampInt lo hi n ≤ hi := by
  rw [clampInt_eq_max_min h]
  omega

theorem execBaselineShift_moves {t : State} (h : execBaselineShift s = .next t) : Moves o s t := by
  cases h
  exact takeRecord_moves fun r rest ht _ =>
    ((Move.shift s _ (clampInt_within (by decide) _)).moves.trans (raiseIf_moves _ rfl)).trans release_moves

theorem refuseTable_moves (why : TableReason) (r : Record) (n : Nat) : Moves o s (s.refuseTable why r n) :=
  (Move.tableFault ..).moves.trans release_moves

theorem execTableBegin_moves {t : State} (h : execTableBegin s = .next t) : Moves o s t := by
  cases h
  refine takeRecord_moves fun r rest ht _ => ?_
  split
  · exact refuseTable_moves ..
  · next hok => exact ((Move.beginTable s r _ _ hok).moves.trans (raiseIf_moves _ rfl)).trans release_moves

theorem execGlyphDefine_moves {t : State} (h : execGlyphDefine s = .next t) : Moves o s t := by
  cases h
  refine takeRecord_moves fun r rest ht _ => ?_
  split
  · exact refuseTable_moves ..
  · next t ht =>
    split
    · exact refuseTable_moves ..
    · next hs =>
      split
      · exact (Move.faultTable s _ t ht (not_not.1 hs)).moves.trans (refuseTable_moves ..)
      · next g hg => exact (Move.defineGlyph s _ t r g ht (not_not.1 hs) hg).moves.trans release_moves

theorem execTableEnd_moves {t : State} (h : execTableEnd s = .next t) : Moves o s t := by
  cases h
  refine takeRecord_moves fun r rest ht _ => ?_
  split
  · exact refuseTable_moves ..
  · next t ht =>
    split
    · exact refuseTable_moves ..
    · next hs => exact (Move.endTable s _ t ht (not_not.1 hs)).moves.trans release_moves

theorem execTableDrop_moves {t : State} (h : execTableDrop s = .next t) : Moves o s t := by
  cases h
  refine takeRecord_moves fun r rest ht _ => ?_
  split
  · exact refuseTable_moves ..
  · next t ht =>
    split
    · exact refuseTable_moves ..
    · next hn =>
      split
      · exact release_moves
      · exact (Move.dropTable s _ t ht (by simpa using hn)).moves.trans release_moves

/-! ### Parameters -/

theorem clampNat_within {lo hi : Nat} (h : lo ≤ hi) (n : Nat) : lo ≤ clampNat lo hi n ∧ clampNat lo hi n ≤ hi := by
  unfold clampNat
  split_ifs <;> omega

/-- R193: a value inside the range of its parameter keeps every parameter in its range. -/
theorem Params.write_safe {p : Params} (hp : p.Safe) {id lo hi v : Nat} (hr : paramRange id = some (lo, hi)) (hv : lo ≤ v ∧ v ≤ hi) :
    (p.write id v).Safe := by
  unfold paramRange at hr
  split at hr <;> cases hr <;> simp only [Params.Safe, Params.write] at hp ⊢ <;> omega

theorem paramRange_le {id lo hi : Nat} (hr : paramRange id = some (lo, hi)) : lo ≤ hi := by
  unfold paramRange at hr
  split at hr <;> cases hr <;> decide

theorem ParamPass.entry_safe {a : ParamPass} (ha : a.params.Safe) (id v : Nat) : (a.entry id v).params.Safe := by
  unfold ParamPass.entry
  split
  · exact ha
  · next lo hi hr =>
    exact Params.write_safe ha hr (clampNat_within (paramRange_le hr) v)

theorem paramPass_safe {p : Params} (hp : p.Safe) (r : Record) : (paramPass p r).params.Safe := by
  unfold paramPass
  generalize hb : ({ params := p, unknown := false, clamped := false, sweep := false } : ParamPass) = a
  have ha : a.params.Safe := hb ▸ hp
  clear hb
  induction paramEntries r generalizing a with
  | nil => exact ha
  | cons e t ih => exact ih _ (ParamPass.entry_safe ha e.1 e.2)

theorem applyParams_moves {a : ParamPass} (ha : s.params.Safe → a.params.Safe) : Moves o s (s.applyParams a) := by
  have hsweep (u : State) (c : Bool) : Moves o u (u.sweepIf c) := by
    cases c with
    | false => exact Moves.refl u
    | true => exact (Move.timers u u.planner.settle _).moves
  have hdispatch (u : State) (c : Bool) : Moves o u (u.dispatchIf c) := by
    cases c with
    | false => exact Moves.refl u
    | true => exact attemptDispatch_moves u
  exact ((((Move.params s _ ha).moves.trans (hsweep _ _)).trans (hdispatch _ _)).trans (raiseIf_moves _ rfl)).trans (raiseIf_moves _ rfl)

theorem shrinkTest_moves : Moves o s s.shrinkTest := by
  have hm : Moves o s s.breakTest.state := (Move.breakTest s).moves
  unfold State.shrinkTest
  split
  · next u hu =>
    rw [hu] at hm
    exact hm.tail (Move.place u u.comp.index true)
  · next u hu =>
    rw [hu] at hm
    exact (hm.tail (Move.place u u.comp.index false)).trans release_moves

theorem execParamSet_moves {t : State} (h : execParamSet s = .next t) : Moves o s t := by
  cases h
  refine takeRecord_moves fun r rest ht _ => ?_
  split
  · exact shrinkTest_moves
  · refine (applyParams_moves fun hp => paramPass_safe hp r).trans ?_
    dsimp only
    split
    · exact shrinkTest_moves
    · exact release_moves

end Sys2Proof.Machine
end

section
/-! PROOFS. The chain of moves that each command makes: pages, paragraphs, text and notes; the lanes and the timers; and so every command. -/

namespace Sys2Proof.Machine

open Sys2Proof

variable {o : Origin} {s : State}

/-! ### Paragraphs and pages -/

/-- An event raised on a condition touches the events alone. -/
theorem raiseIf_eq (s : State) (c : Bool) (e : EdgeEvent) : s.raiseIf c e = s.setEvents (if c then s.events.mark e else s.events) := by
  cases c <;> rfl

/-- R71: where a paragraph's end is no PAGE_FULL handling, the buffer of an open page is empty, and the Composer's state and the carry are as they were. -/
theorem endParagraph_placed {u : State} (h : s.endParagraph = .placed u) :
    u.comp.state = s.comp.state ∧ u.comp.carry = s.comp.carry ∧ (u.composingPage.isSome = true → u.comp.buffer = []) := by
  unfold State.endParagraph at h
  dsimp only at h
  split at h
  · next hb =>
    cases h
    exact ⟨rfl, rfl, fun _ => List.isEmpty_iff.1 hb⟩
  · cases hp : s.composingPage with
    | none =>
      rw [commit_none hp] at h
      cases h
      refine ⟨rfl, rfl, fun hu => ?_⟩
      rw [show (s.setComp { s.comp with para := none }).composingPage = none from hp] at hu
      cases hu
    | some p =>
      obtain ⟨i, page⟩ := p
      rw [commit_cases hp] at h
      split at h
      · cases h
      · cases h
        exact ⟨rfl, rfl, fun _ => List.drop_length⟩

theorem endParagraph_moves (hs : s.comp.state = .composing) (hc : s.comp.carry = []) {u : State} (hu : s.endParagraph.state = u) :
    Moves o s u := hu ▸ (Move.endParagraph s hs hc).moves

/-- R103: after a close no page is being composed. -/
theorem closePage_closed (hs : s.comp.state = .composing) :
    s.closePage.comp.state.waiting = false ∧ (s.closePage.comp.state = .composing → s.closePage.composingPage = none) ∧
      s.closePage.comp.carry = s.comp.carry := by
  unfold State.closePage
  split
  · next hp => exact ⟨by rw [hs]; rfl, fun _ => hp, rfl⟩
  · exact ⟨rfl, fun h => ComposerState.noConfusion h, rfl⟩

theorem clampPair_le (limit first second : Nat) : (clampPair limit first second).1 + (clampPair limit first second).2 ≤ limit := by
  unfold clampPair
  split
  · dsimp only
    omega
  · dsimp only
    omega

/-- R99: a clamped frame is safe. -/
theorem clampFrame_safe (left right top bottom : Nat) : (clampFrame left right top bottom).Safe :=
  ⟨clampPair_le 1456 left right, clampPair_le 2016 top bottom⟩

theorem startPage_moves (r : Record) (hw : s.comp.state.waiting = false) (hn : s.comp.state = .composing → s.composingPage = none)
    (hc : s.comp.carry = []) : Moves o s (s.startPage r) := by
  unfold State.startPage
  dsimp only
  generalize hv : s.raiseIf _ _ = v
  have hm : Moves o s v := hv ▸ raiseIf_moves _ rfl
  have hcomp : v.comp = s.comp := by rw [← hv, raiseIf_eq]; rfl
  have hplanes : v.planes = s.planes := by rw [← hv, raiseIf_eq]; rfl
  have hpage : v.composingPage = s.composingPage := by simp only [State.composingPage, hplanes]
  rw [← hcomp] at hw hc
  rw [← hcomp, ← hpage] at hn
  refine hm.trans ?_
  split
  · next i hi => exact (Move.openPage v i _ _ (clampFrame_safe ..) hi hw hn hc).moves.trans release_moves
  · exact (Move.awaitPlane v _ _ (clampFrame_safe ..) hw hn hc).moves

theorem execPageOpen_moves {t : State} (h : execPageOpen s = .next t) : Moves o s t := by
  cases h
  refine takeRecord_moves fun r rest ht _ => ?_
  obtain ⟨-, hw, -, hc⟩ := ht
  split
  · next hs =>
    split
    · next u hu => exact endParagraph_moves hs hc (congrArg Commit.state hu)
    · next u hu =>
      obtain ⟨hstate, hcarry, hbuffer⟩ := endParagraph_placed hu
      obtain ⟨hw', hn', hc'⟩ := closePage_closed (hstate.trans hs)
      have hclose : Moves o s _ := (endParagraph_moves hs hc (congrArg Commit.state hu)).tail (Move.closePage u (hcarry.trans hc) hbuffer)
      exact (hclose.trans (raise_moves rfl)).trans (startPage_moves r hw' hn' (hc'.trans (hcarry.trans hc)))
  · next hs => exact startPage_moves r hw (fun h => by rw [hs] at h; cases h) hc
  · exact Moves.refl s

theorem flipReady_moves (s : State) : Moves o s s.flipReady := by
  unfold State.flipReady
  split
  · exact Moves.refl s
  · next i hi => exact flip_moves hi

theorem execPageClose_moves {t : State} (h : execPageClose s = .next t) : Moves o s t := by
  cases h
  refine takeRecord_moves fun r rest ht hcontent => ?_
  have hs := hcontent rfl
  obtain ⟨-, -, -, hc⟩ := ht
  split
  · exact raise_release_moves rfl
  · split
    · next u hu => exact endParagraph_moves hs hc (congrArg Commit.state hu)
    · next u hu =>
      obtain ⟨-, hcarry, hbuffer⟩ := endParagraph_placed hu
      have hclose : Moves o s _ := (endParagraph_moves hs hc (congrArg Commit.state hu)).tail (Move.closePage u (hcarry.trans hc) hbuffer)
      split
      · exact (hclose.trans (flipReady_moves _)).trans release_moves
      · exact hclose.trans release_moves

theorem openParagraph_moves (r : Record) (a : Alignment) (hs : s.comp.state = .composing) : Moves o s (s.openParagraph r a) := by
  unfold State.openParagraph
  dsimp only
  generalize hv : s.raiseIf _ _ = v
  have hm : Moves o s v := hv ▸ raiseIf_moves _ rfl
  have hcomp : v.comp = s.comp := by rw [← hv, raiseIf_eq]; rfl
  have hplanes : v.planes = s.planes := by rw [← hv, raiseIf_eq]; rfl
  have hpage : v.composingPage = s.composingPage := by simp only [State.composingPage, hplanes]
  exact hm.tail (Move.openParagraph v _ (hcomp ▸ hs) (hpage ▸ Nat.min_le_right _ _))

theorem execParaStart_moves {t : State} (h : execParaStart s = .next t) : Moves o s t := by
  cases h
  refine takeRecord_moves fun r rest ht hcontent => ?_
  have hs := hcontent rfl
  obtain ⟨-, -, -, hc⟩ := ht
  split
  · exact raise_release_moves rfl
  · next a _ =>
    by_cases hp : s.comp.para.isSome = true
    · rw [if_pos hp]
      split
      · next u hu => exact endParagraph_moves hs hc (congrArg Commit.state hu)
      · next u hu =>
        obtain ⟨hstate, -, -⟩ := endParagraph_placed hu
        exact ((endParagraph_moves hs hc (congrArg Commit.state hu)).trans
          (openParagraph_moves r a (hstate.trans hs))).trans release_moves
    · rw [if_neg hp]
      exact (openParagraph_moves r a hs).trans release_moves

theorem execParaEnd_moves {t : State} (h : execParaEnd s = .next t) : Moves o s t := by
  cases h
  refine takeRecord_moves fun r rest ht hcontent => ?_
  have hs := hcontent rfl
  obtain ⟨-, -, -, hc⟩ := ht
  split
  · next u hu => exact endParagraph_moves hs hc (congrArg Commit.state hu)
  · next u hu => exact (endParagraph_moves hs hc (congrArg Commit.state hu)).trans release_moves

/-! ### Text -/

theorem runTo_moves (count index : Nat) : Moves o s (s.runTo count index) := by
  unfold State.runTo
  split
  · exact (Move.place s 0 s.comp.applied).moves.trans release_moves
  · exact (Move.place s index s.comp.applied).moves

theorem appendNew_moves (r : Record) (code cls : Nat) (hs : s.comp.state = .composing) (hc : s.comp.carry = [])
    (hn : s.comp.nextOrdinal < 8192) : Moves o s (s.appendNew r code cls).state := by
  unfold State.appendNew
  dsimp only
  split
  · next why _ => exact (Move.glyphMissing s why r code _).moves.tail (Move.appendNew _ code cls hs hc hn)
  · exact (Move.appendNew s code cls hs hc hn).moves

theorem execTextRunEntry_moves {t : State} (h : execTextRunEntry s = .next t) : Moves o s t := by
  cases h
  refine takeRecord_moves fun r rest ht hcontent => ?_
  have hs := hcontent rfl
  obtain ⟨-, -, -, hc⟩ := ht
  dsimp only
  split
  · exact ((Move.faceFault ..).moves.tail (Move.place _ 0 s.comp.applied)).trans release_moves
  · split
    · exact runTo_moves ..
    · split
      · exact (Move.pageFull s hs).moves
      · next hn =>
        have happend := appendNew_moves (o := o) r (r.u16 (4 + 3 * s.comp.index)) (r.u8 (6 + 3 * s.comp.index)) hs hc (not_le.1 hn)
        split
        · next u hu =>
          rw [hu] at happend
          exact happend.tail (Move.place u _ u.comp.applied)
        · next u hu =>
          rw [hu] at happend
          exact happend.trans (runTo_moves ..)

theorem execCarryReappend_moves {t : State} (h : execCarryReappend s = .next t) : Moves o s t := by
  cases h
  split
  · next hs =>
    have hs := (by simpa using hs : s.comp.state = .composing ∧ s.cmd.streamHold = 0).1
    split
    · exact Moves.refl s
    · next e rest hc =>
      split
      · exact (Move.pageFull s hs).moves
      · next hn => exact (Move.reappend s e rest hs hc (not_le.1 hn)).moves
  · exact Moves.refl s

theorem execUnassignedRecord_moves {t : State} (h : execUnassignedRecord s = .next t) : Moves o s t := by
  cases h
  split
  · exact Moves.refl s
  · split
    · exact Moves.refl s
    · exact raise_release_moves rfl

/-! ### Stream notes -/

theorem openNote_moves {i : PlaneId} {page : Page} {r : Record} {style : NoteStyle} (hs : s.comp.state = .composing)
    (hp : s.composingPage = some (i, page)) (hok : noteOpenRefusal s page (r.u16 4) = none) :
    Moves o s (s.openNote page i r style) := by
  unfold State.openNote
  cases toneClamped style (r.u8 7) with
  | false => exact (Move.openNote s i page _ (r.u8 7) hs hp ⟨rfl, rfl, rfl⟩ hok).moves
  | true => exact (raise_moves (e := .paramClamped) rfl).tail (Move.openNote _ i page _ (r.u8 7) hs hp ⟨rfl, rfl, rfl⟩ hok)

theorem execNoteOpen_moves {t : State} (h : execNoteOpen s = .next t) : Moves o s t := by
  cases h
  refine takeRecord_moves fun r rest ht hcontent => ?_
  have hs := hcontent rfl
  split
  · exact raise_release_moves rfl
  · exact release_moves
  · next hp =>
    split
    · exact (Move.noteFault ..).moves.trans release_moves
    · next hok => exact (openNote_moves hs hp hok).trans release_moves

theorem execNoteClose_moves {t : State} (h : execNoteClose s = .next t) : Moves o s t := by
  cases h
  refine takeRecord_moves fun r rest ht hcontent => ?_
  have hs := hcontent rfl
  split
  · next hid => exact (Move.closeNote s _ hs (by simpa using hid)).moves.trans release_moves
  · exact (Move.noteFault ..).moves.trans release_moves

/-! ### Lanes and timers -/

theorem endTiles_residue_le (u : Update) (ok : Bool) {v : Vector Tile 1200} (hv : ∀ t ∈ v.toList, t.residue ≤ 255) :
    ∀ t ∈ (endTiles u ok v).toList, t.residue ≤ 255 := by
  refine mapTiles_residue_le _ (fun t _ => ?_) hv
  split
  · exact updated_residue_le t _
  · exact unknown_residue_le t

/-- R166: an OK FAST update touches a stopped settle timer alone. -/
theorem startSettleIf_eq (s : State) (c : Bool) : s.startSettleIf c = s.setPlanner { s.planner with
    settle := if c = true ∧ s.planner.settle = none then s.deadlineIn s.params.settle else s.planner.settle } := by
  cases c with
  | false => rfl
  | true =>
    unfold State.startSettleIf State.startSettle
    cases hs : s.planner.settle with
    | none => rfl
    | some d =>
      simp only [reduceCtorEq, and_false, if_false]
      rw [← hs]
      rfl

theorem reportShown_finish_moves (i : Fin 4) (hw : s.lanes.lane[i].state = .waiting) :
    Moves o s ((s.reportShown i).setLanes ((s.reportShown i).lanes.setState i .idle)) := by
  have hm := @Move.finish o
  unfold State.reportShown
  split
  · next hi =>
    have := hm (s.raise .pageShown) i hw
    rw [show (s.raise .pageShown).planes.showing.contains i = true from hi, if_pos rfl] at this
    exact (raise_moves rfl).tail this
  · next hi =>
    have := hm s i hw
    rw [if_neg hi] at this
    exact this.moves

theorem setLast_lane (l : LaneController) (m : Mode) (d : Tick) : (l.setLast m d).lane = l.lane := by
  cases m <;> rfl

theorem endUpdate_moves (i : Fin 4) (u : Update) (ok : Bool) (hw : s.lanes.lane[i].state = .waiting) : Moves o s (s.endUpdate i u ok) := by
  unfold State.endUpdate
  dsimp only
  obtain ⟨d, hd⟩ : ∃ d, (s.setPlanner { s.planner with tiles := endTiles u ok s.planner.tiles }).startSettleIf (ok && u.mode == .fast) =
      (s.setPlanner { s.planner with tiles := endTiles u ok s.planner.tiles, settle := d }) := ⟨_, startSettleIf_eq _ _⟩
  rw [hd]
  have h1 : Moves o s _ := ((Move.tiles s (endTiles u ok s.planner.tiles) (endTiles_residue_le u ok)).moves.tail
    (Move.timers _ d s.planner.sweep)).tail (Move.duration _ u.mode (s.tick - u.started))
  have h2 := h1.trans (raiseIf_moves (!ok) (e := .updateFailed) rfl)
  refine (h2.trans (reportShown_finish_moves i ?_)).trans (attemptDispatch_moves _)
  rw [raiseIf_eq]
  refine (congrArg (·.state) (?_ : _ = s.lanes.lane[i])).trans hw
  exact congrArg (·[i]) (setLast_lane s.lanes u.mode _)

theorem matchedLane_waiting {l : LaneController} {lane seq : Byte} {i : Fin 4} (h : matchedLane l lane seq = some i) :
    lane.toNat = i ∧ l.lane[i].state = .waiting ∧ l.lane[i].seq = seq := by
  have := List.find?_some h
  simpa [and_assoc] using this

theorem takeFrame_moves (lane seq result : Byte) : Moves o s (s.takeFrame lane seq result) := by
  unfold State.takeFrame
  split
  · exact raise_moves rfl
  · next i hi =>
    split
    · exact raise_moves rfl
    · exact endUpdate_moves i _ _ (matchedLane_waiting hi).2.1

theorem receive_moves (b : Byte) : Moves o s (s.receive b) := by
  unfold State.receive
  split
  · split
    · exact (Move.receive s _ fun _ got h => by cases h; exact Nat.zero_le 2).moves
    · exact Moves.refl s
  · exact (Move.receive s none fun _ got h => by cases h).moves.trans (takeFrame_moves ..)
  · next got hne hrx =>
    refine (Move.receive s _ fun hle got' h => ?_).moves
    cases h
    have := hle got hrx
    match got, hne, this with
    | [], _, _ => exact Nat.le_succ 1
    | [x], _, _ => exact Nat.le_refl 2
    | [x, y], hne, _ => exact absurd rfl (hne x y)

theorem execCompletionFrame_moves {b : Byte} {t : State} (h : execCompletionFrame b s = .next t) : Moves o s t := by
  cases h
  split
  · exact receive_moves b
  · exact Moves.refl s

theorem execPnlRxByte_moves {b : Byte} {t : State} (h : execPnlRxByte b s = .next t) : Moves o s t := by
  cases h
  exact receive_moves b

theorem execPnlRxBreak_moves {t : State} (h : execPnlRxBreak s = .next t) : Moves o s t := by
  cases h
  exact (Move.receive s none fun _ got h => by cases h).moves

theorem timeout_moves (i : Fin 4) (hw : s.lanes.lane[i].state = .waiting) : Moves o s (s.timeout i) := by
  unfold State.timeout
  split
  · exact Moves.refl s
  · next u _ =>
    have hm : Moves o s _ := (Move.tiles s (mapTiles u.rect Tile.unknown s.planner.tiles)
      (mapTiles_residue_le u.rect fun t _ => unknown_residue_le t)).moves
    exact (hm.tail (Move.timeout _ i hw)).trans (attemptDispatch_moves _)

theorem execLaneTimeout_moves {n : Nat} {t : State} (h : execLaneTimeout n s = .next t) : Moves o s t := by
  unfold execLaneTimeout at h
  split at h
  · next hn =>
    cases h
    split
    · next he => exact timeout_moves ⟨n, hn⟩ (beq_iff_eq.1 ((Bool.and_eq_true _ _).mp he).1)
    · exact Moves.refl s
  · cases h

theorem requestTiles_moves (source : Source) (mode : Mode) (p : Tile → Bool) : Moves o s (s.requestTiles source mode p) := by
  unfold State.requestTiles
  split
  · next hp _ => exact arrive_moves _ _ _ (hp ▸ rfl)
  · exact Moves.refl s

theorem execCoalescingTimerExpiry_moves {t : State} (h : execCoalescingTimerExpiry s = .next t) : Moves o s t := by
  cases h
  split
  · exact releaseHold_moves s
  · exact Moves.refl s

theorem execSettleTimerExpiry_moves {t : State} (h : execSettleTimerExpiry s = .next t) : Moves o s t := by
  cases h
  split
  · exact (Move.timers s none s.planner.sweep).moves.trans (requestTiles_moves ..)
  · exact Moves.refl s

theorem execSweepTimerExpiry_moves {t : State} (h : execSweepTimerExpiry s = .next t) : Moves o s t := by
  cases h
  split
  · split
    · exact (Move.timers s s.planner.settle _).moves.trans (requestTiles_moves ..)
    · exact (Move.timers s s.planner.settle none).moves.trans (requestTiles_moves ..)
  · exact Moves.refl s

theorem execTick_moves {t : State} (h : execTick s = .next t) : Moves o s t := by
  cases h
  exact (((Move.tick s (s.tick + 1)).moves.tail (Move.count _)).tail (Move.coalesce _ _)).tail (Move.timers _ _ _)

/-! ### SEND_END -/

/-- R110: a RETIRING plane from which no lane sends any more becomes FREE, short of the grant that may follow. -/
def State.freeRetired (s : State) : State :=
  match s.planes.find .retiring with
  | none => s
  | some i => if s.lanes.sendsFrom i then s else s.setPlanes (s.planes.free i)

/-- R110 and R175: the lane whose frame is finished waits, and the plane that only it kept from being freed is FREE. -/
def State.sendEnded (s : State) (i : Fin 4) : State :=
  (s.setLanes (s.lanes.endSend i fun p => (s.planes.get p).pixels)).freeRetired

theorem freeRetired_retire_moves (s : State) : Moves o s.freeRetired s.retire := by
  unfold State.freeRetired State.retire
  cases s.planes.find .retiring with
  | none => exact Moves.refl s
  | some i =>
    dsimp only
    split
    · exact Moves.refl s
    · exact (Move.grant _).moves

/-- R130: a held re-render that is tested again is held as it was, or ends. -/
theorem testHeld_cases (s : State) :
    s.testHeld = s ∧ (∀ h, s.cmd.executing = some h → ∃ i, s.planes.find .shown = some i ∧ sendConflict s.lanes i h.tiles = true) ∨
    s.testHeld = s.setCmd { s.cmd with executing := none } ∨
    ∃ h, s.cmd.executing = some h ∧ s.frontPage.isSome = true ∧
      Moves o ((s.setCmd { s.cmd with executing := none }).drawHeld h) s.testHeld := by
  unfold State.testHeld
  split
  · next he => exact .inl ⟨rfl, fun h hh => by rw [he] at hh; cases hh⟩
  · next h he =>
    unfold State.rerender
    split
    · exact .inr (.inl rfl)
    · next i page hp =>
      split
      · next hc =>
        refine .inl ⟨?_, fun h' hh => ?_⟩
        · show ({ s with cmd := { s.cmd with executing := some h } } : State) = s
          rw [← he]
        · rw [he] at hh
          cases hh
          exact ⟨i, (Planes.pageOf_eq_some _ _ hp).1, hc⟩
      · exact .inr (.inr ⟨h, he, (Option.isSome_iff_exists.2 ⟨_, hp⟩), joinHold_moves _⟩)

theorem testHeldIf_moves (c : Bool) : Moves o s (s.testHeldIf c) := by
  cases c with
  | false => exact Moves.refl s
  | true =>
    show Moves o s s.testHeld
    rcases testHeld_cases s with ⟨h, -⟩ | h | ⟨h, he, hp, hm⟩
    · rw [h]
    · rw [h]
      exact (Move.unhold s).moves
    · exact (Move.drawTested s h he hp).moves.trans hm

/-- R110, R130, R174 and R175: a send's end. The transmitter, free in between, takes the oldest lane last. -/
theorem execSendEnd_cases {t : State} (h : execSendEnd s = .next t) :
    t = s ∨ ∃ i, s.lanes.tx = some i ∧ ∃ u, Moves .other (s.sendEnded i) u ∧
      t = (u.testHeldIf (s.lanes.lane[i].readsFront s.planes)).setLanes
        (u.testHeldIf (s.lanes.lane[i].readsFront s.planes)).lanes.feed := by
  cases h
  cases htx : s.lanes.tx with
  | none => exact .inl rfl
  | some i => exact .inr ⟨i, rfl, _, freeRetired_retire_moves _, rfl⟩

/-! ### Every command -/

/-- Every command but POWER_ON_RESET and SEND_END is a chain of moves; only the link's commands make the link's. -/
theorem exec_made {c : Instr} (hp : c ≠ .powerOnReset) (hs : c ≠ .sendEnd) {t : State} (h : exec c s = .next t) : Made s t := by
  cases c with
  | powerOnReset => exact absurd rfl hp
  | sendEnd => exact absurd rfl hs
  | transferBegin => exact .link ⟨_, rfl, h⟩ (execTransferBegin_moves h)
  | transferEnd n => exact .link ⟨_, rfl, h⟩ (execTransferEnd_moves h)
  | recordHeader b | streamRecordEntry b | commandWhole b => exact .link ⟨_, rfl, h⟩ (by cases h; exact clockByte_if_moves _ b)
  | inboundByte b => exact .link ⟨_, rfl, h⟩ (by cases h; exact clockByte_moves b)
  | pageShow => exact execPageShow_made h
  | pageDrop => exact execPageDrop_made h
  | notePaint => exact execNotePaint_made h
  | noteErase => exact execNoteErase_made h
  | refreshRequest => exact execRefreshRequest_made h
  | eventAck => exact execEventAck_made h
  | query => exact execQuery_made h
  | streamReset => exact execStreamReset_made h
  | panelReset => exact execPanelReset_made h
  | pageOpen => exact .other (execPageOpen_moves h)
  | pageClose => exact .other (execPageClose_moves h)
  | paraStart => exact .other (execParaStart_moves h)
  | paraEnd => exact .other (execParaEnd_moves h)
  | textRunEntry => exact .other (execTextRunEntry_moves h)
  | carryReappend => exact .other (execCarryReappend_moves h)
  | unassignedRecord => exact .other (execUnassignedRecord_moves h)
  | faceLoad => exact .other (execFaceLoad_moves h)
  | faceUnload => exact .other (execFaceUnload_moves h)
  | faceSelect => exact .other (execFaceSelect_moves h)
  | stylePush => exact .other (execStylePush_moves h)
  | stylePop => exact .other (execStylePop_moves h)
  | baselineShift => exact .other (execBaselineShift_moves h)
  | noteOpen => exact .other (execNoteOpen_moves h)
  | noteClose => exact .other (execNoteClose_moves h)
  | tableBegin => exact .other (execTableBegin_moves h)
  | glyphDefine => exact .other (execGlyphDefine_moves h)
  | tableEnd => exact .other (execTableEnd_moves h)
  | tableDrop => exact .other (execTableDrop_moves h)
  | paramSet => exact .other (execParamSet_moves h)
  | completionFrame b => exact .other (execCompletionFrame_moves h)
  | pnlRxBreak => exact .other (execPnlRxBreak_moves h)
  | laneTimeout n => exact .other (execLaneTimeout_moves h)
  | coalescingTimerExpiry => exact .other (execCoalescingTimerExpiry_moves h)
  | settleTimerExpiry => exact .other (execSettleTimerExpiry_moves h)
  | sweepTimerExpiry => exact .other (execSweepTimerExpiry_moves h)
  | pnlRxByte b => exact .other (execPnlRxByte_moves h)
  | tick => exact .other (execTick_moves h)

/-- What every move keeps, whatever it comes from, a step's moves keep. -/
theorem Made.keep {P : State → Prop} (hP : ∀ o s t, Move o s t → P s → P t) {t : State} (m : Made s t) (h : P s) : P t := by
  cases m with
  | link _ m => exact m.keep (hP _) h
  | command r rest _ m => exact m.keep (hP _) (hP _ _ _ (Move.intake s rfl s.link s.ring rest _) h)
  | other m => exact m.keep (hP _) h

/-- A step is a power-on reset, a chain of moves, or a send's end with its moves between the lane's half and the transmitter's. -/
theorem step_cases {t : State} (h : step s = .next t) :
    t = s ∨ ∃ x, execPowerOnReset (s.setPending x) = .next t ∨ Made (s.setPending x) t ∨
      ∃ i u, s.lanes.tx = some i ∧ Moves .other ((s.setPending x).sendEnded i) u ∧
        t = (u.testHeldIf (s.lanes.lane[i].readsFront s.planes)).setLanes (u.testHeldIf (s.lanes.lane[i].readsFront s.planes)).lanes.feed := by
  unfold step at h
  split at h
  · cases h
    exact .inl rfl
  · next c rest _ =>
    by_cases hp : c = .powerOnReset
    · subst hp
      exact .inr ⟨rest, .inl h⟩
    · by_cases hs : c = .sendEnd
      · subst hs
        rcases execSendEnd_cases h with rfl | ⟨i, htx, u, hm, rfl⟩
        · exact .inr ⟨rest, .inr (.inl (.other (Moves.refl _)))⟩
        · exact .inr ⟨rest, .inr (.inr ⟨i, u, htx, hm, rfl⟩)⟩
      · exact .inr ⟨rest, .inr (.inl (exec_made hp hs h))⟩

/-- A property `P` that every move keeps, and power-on gives, is kept by every step, if the two halves of a send's end, the lane's and the transmitter's, lead
from `P` to a property `Q` that moves keep, and back. -/
theorem step_keeps_through {P Q : State → Prop} (hmove : ∀ o s t, Move o s t → P s → P t) (hbetween : ∀ o s t, Move o s t → Q s → Q t)
    (hpending : ∀ s x, P s → P (s.setPending x)) (hreset : ∀ s t, P s → execPowerOnReset s = .next t → P t)
    (hsend : ∀ s i, P s → s.lanes.tx = some i → Q (s.sendEnded i)) (hfeed : ∀ s, Q s → P (s.setLanes s.lanes.feed))
    {s t : State} (hP : P s) (h : step s = .next t) : P t := by
  rcases step_cases h with rfl | ⟨x, hr | hm | ⟨i, u, htx, hm, rfl⟩⟩
  · exact hP
  · exact hreset _ _ (hpending s x hP) hr
  · exact hm.keep hmove (hpending s x hP)
  · exact hfeed _ (Moves.keep (hbetween _) (hm.trans (testHeldIf_moves _)) (hsend _ i (hpending s x hP) htx))

/-- A property that power-on gives, that every move keeps, and that the two halves of a send's end keep, is kept by every step. -/
theorem step_keeps {P : State → Prop} (hmove : ∀ o s t, Move o s t → P s → P t) (hpending : ∀ s x, P s → P (s.setPending x))
    (hreset : ∀ s t, P s → execPowerOnReset s = .next t → P t)
    (hsend : ∀ s i, P s → s.lanes.tx = some i → P (s.sendEnded i)) (hfeed : ∀ s, P s → P (s.setLanes s.lanes.feed))
    {s t : State} (hP : P s) (h : step s = .next t) : P t :=
  step_keeps_through hmove hmove hpending hreset hsend hfeed hP h

/-- A family of properties, of which a send's end may lose the tested one until it has tested a held re-render again. -/
theorem step_keeps_tested {P : Bool → State → Prop} (hmove : ∀ b o s t, Move o s t → P b s → P b t) (hpending : ∀ s x, P true s → P true (s.setPending x))
    (hreset : ∀ s t, P true s → execPowerOnReset s = .next t → P true t)
    (hsend : ∀ s i, P true s → s.lanes.tx = some i → P (!s.lanes.lane[i].readsFront s.planes) (s.sendEnded i))
    (htest : ∀ c s, P (!c) s → P true (s.testHeldIf c)) (hfeed : ∀ s, P true s → P true (s.setLanes s.lanes.feed))
    {s t : State} (hP : P true s) (h : step s = .next t) : P true t := by
  rcases step_cases h with rfl | ⟨x, hr | hm | ⟨i, u, htx, hm, rfl⟩⟩
  · exact hP
  · exact hreset _ _ (hpending s x hP) hr
  · exact hm.keep (hmove _) (hpending s x hP)
  · exact hfeed _ (htest _ _ (Moves.keep (hmove _ _) hm (hsend _ i (hpending s x hP) htx)))

end Sys2Proof.Machine
end

section
/-! PROOFS. A property that every commit keeps is kept by whatever is made of commits. -/

namespace Sys2Proof.Machine

open Sys2Proof

variable {P : State → Prop} {s : State}

theorem commit_keeps (hfull : ∀ s, P s → P s.pageFull)
    (hplace : ∀ s i page n o, s.composingPage = some (i, page) → P s → P (placeLine s i page n o))
    (l : EndingLine) (h : P s) : P (s.commit l).state := by
  cases hp : s.composingPage with
  | none =>
    rw [commit_none hp]
    exact h
  | some p =>
    rw [commit_cases (i := p.1) (page := p.2) hp]
    split
    · exact hfull s h
    · exact hplace s p.1 p.2 _ _ hp h

theorem andThen_keeps {c : Commit} {f : State → Commit} (hc : P c.state) (hf : ∀ t, P t → P (f t).state) : P (c.andThen f).state := by
  cases c with
  | placed t => exact hf t hc
  | full t => exact hc

theorem breakTest_keeps (hcommit : ∀ s l, P s → P (State.commit s l).state) (h : P s) : P s.breakTest.state := by
  unfold State.breakTest
  generalize s.comp.buffer.length = n
  induction n generalizing s with
  | zero => exact h
  | succ n ih =>
    unfold breakUpTo
    split
    · exact h
    · exact andThen_keeps (hcommit s _ h) fun t ht => ih ht

theorem afterAppend_keeps (hcommit : ∀ s l, P s → P (State.commit s l).state) (cls : Nat) (h : P s) : P (s.afterAppend cls).state := by
  unfold State.afterAppend
  refine andThen_keeps ?_ fun t ht => ?_
  · split
    · exact hcommit s _ h
    · exact breakTest_keeps hcommit h
  · unfold State.bufferFull
    split
    · exact hcommit t _ ht
    · exact ht

theorem endParagraph_keeps (hcommit : ∀ s l, P s → P (State.commit s l).state)
    (hpara : ∀ s : State, P s → P (s.setComp { s.comp with para := none })) (h : P s) : P s.endParagraph.state := by
  unfold State.endParagraph
  dsimp only
  split
  · exact hpara s h
  · exact andThen_keeps (hcommit s _ h) hpara

end Sys2Proof.Machine
end

section
/-! PROOFS. What the operations that moves are made of leave unchanged. -/

namespace Sys2Proof.Machine

open Sys2Proof

theorem mapComposingPage_eq (s : State) (f : Page → Page) : ∃ p, s.mapComposingPage f = s.setPlanes p := by
  unfold State.mapComposingPage
  split
  · exact ⟨s.planes, rfl⟩
  · exact ⟨_, rfl⟩

theorem join_eq (s : State) (e : Entry) : ∃ c p, s.join e = (s.setComp c).setPlanes p := by
  unfold State.join
  obtain ⟨p, hp⟩ := mapComposingPage_eq (s.setComp { s.comp.withPara with
    buffer := s.comp.withPara.buffer ++ [{ e with ordinal := s.comp.withPara.nextOrdinal, kern := s.kernFor e }]
    nextOrdinal := s.comp.withPara.nextOrdinal + 1 }) fun page =>
      { page with glyphCount := s.comp.withPara.nextOrdinal + 1
                  faceSet := if e.face = 0 then page.faceSet else insertNat e.face page.faceSet }
  exact ⟨_, p, hp⟩

theorem grant_frame (s : State) : ∃ r c p, s.grant = ((s.setRing r).setComp c).setPlanes p := by
  unfold State.grant
  split
  · exact ⟨s.ring, s.comp, s.planes, rfl⟩
  · split
    · exact ⟨_, _, _, rfl⟩
    · exact ⟨s.ring, _, _, rfl⟩
    · exact ⟨s.ring, s.comp, s.planes, rfl⟩

theorem redraw_frame (s : State) (lines : List Nat) : ∃ p, s.redraw lines = s.setPlanes p := by
  unfold State.redraw
  split
  · exact ⟨s.planes, rfl⟩
  · exact ⟨_, rfl⟩

theorem holdTiles_frame (s : State) (tiles : List Nat) :
    ∃ (q : List Request) (n : NoteUnit), s.holdTiles tiles = (s.setPlanner { s.planner with queue := q }).setNotes { n with openIds := s.notes.openIds } := by
  unfold State.holdTiles
  dsimp only
  split
  · obtain ⟨q, hq⟩ := queueHold_frame (s.setNotes { s.notes with tiles := tiles.foldr insertNat s.notes.tiles, chain := s.notes.chain + 1 })
    exact ⟨q, s.notes.emptyHold, hq⟩
  · exact ⟨s.planner.queue, { s.notes with tiles := tiles.foldr insertNat s.notes.tiles, chain := s.notes.chain + 1 }, rfl⟩

theorem drawHeld_frame (s : State) (h : HeldPaint) :
    ∃ (q : List Request) (n : NoteUnit) (p : Planes), s.drawHeld h = ((s.setPlanner { s.planner with queue := q }).setNotes { n with openIds := s.notes.openIds }).setPlanes p := by
  obtain ⟨p, hp⟩ := redraw_frame s h.lines
  obtain ⟨q, n, hq⟩ := holdTiles_frame (s.setPlanes p) h.tiles
  exact ⟨q, n, p, by rw [State.drawHeld, hp, hq]; rfl⟩

/-- R106 and R131: a flip, short of its grant and its dispatch, touches planes, planner and hold set, and ends a held paint. -/
theorem showReady_frame (s : State) (i : PlaneId) :
    ∃ (p : Planes) (n : Planner) (u : State), u = ((s.setPlanes p).setPlanner { s.planner with queue := n.queue, flipCounter := n.flipCounter, fullNext := n.fullNext }).setNotes
        s.notes.emptyHold ∧
      (s.cmd.executing = none ∧ s.showReady i = u ∨ ∃ h, s.cmd.executing = some h ∧ s.showReady i =
        (u.setCmd { u.cmd with executing := none }).commandRefused .superseded h.command.kind h.command.tag h.id h.ordinal) := by
  refine ⟨flipPlanes s.planes s.lanes i, (s.setPlanes (flipPlanes s.planes s.lanes i)).flipRequest.planner,
    (s.setPlanes (flipPlanes s.planes s.lanes i)).flipRequest, rfl, ?_⟩
  unfold State.showReady State.supersede
  cases he : s.cmd.executing with
  | none =>
    refine .inl ⟨rfl, ?_⟩
    rw [show (s.setPlanes (flipPlanes s.planes s.lanes i)).flipRequest.cmd.executing = none from he]
  | some h =>
    refine .inr ⟨h, rfl, ?_⟩
    rw [show (s.setPlanes (flipPlanes s.planes s.lanes i)).flipRequest.cmd.executing = some h from he]

theorem setTable_frame (s : State) (id : Nat) (t : GlyphTable) : ∃ g, s.setTable id t = s.setGlyphs g := ⟨_, setTable_eq s id t⟩

end Sys2Proof.Machine
end

section
/-! PROOFS. Chapter 11: detail slots and flags stand together. -/

namespace Sys2Proof.Machine

open Sys2Proof

theorem EdgeEvent.bit_inj {e e' : EdgeEvent} : e.bit = e'.bit ↔ e = e' := by
  have hidx (e : EdgeEvent) : e.bit = e.ctorIdx := by cases e <;> rfl
  refine ⟨fun h => ?_, congrArg _⟩
  rw [hidx, hidx] at h
  rw [← EdgeEvent.ofNat_ctorIdx e, h, EdgeEvent.ofNat_ctorIdx]

theorem EdgeEvent.bit_lt (e : EdgeEvent) : e.bit < 16 := by cases e <;> decide

/-- R184: a raised event sets its own flag and no other. -/
theorem EventUnit.has_mark (u : EventUnit) (e e' : EdgeEvent) : (u.mark e).has e' = (u.has e' || decide (e = e')) := by
  have : (BitVec.twoPow 16 e.bit).getLsbD e'.bit = decide (e = e') := by
    rw [BitVec.getLsbD_twoPow, decide_eq_true e.bit_lt, Bool.true_and]
    exact decide_eq_decide.2 (by rw [← EdgeEvent.bit_inj])
  simp only [EventUnit.has, EventUnit.mark, BitVec.getLsbD_or, this]

theorem EventUnit.has_mark_self (u : EventUnit) (e : EdgeEvent) : (u.mark e).has e = true := by simp [u.has_mark]

theorem EventUnit.has_mark_ne (u : EventUnit) {e e' : EdgeEvent} (h : e ≠ e') : (u.mark e).has e' = u.has e' := by simp [u.has_mark, h]

theorem putDetail_isSome {ρ : Type} (slot : Option (Detail ρ)) (why : ρ) (k g : Byte) (v n : Nat) :
    (putDetail slot why k g v n).isSome = true := by
  cases slot <;> rfl

/-- R188: an acknowledgement clears the flags it names. -/
theorem EventUnit.has_acknowledge (u : EventUnit) (ack : BitVec 16) (e : EdgeEvent) :
    (u.acknowledge ack).has e = (u.has e && !ack.getLsbD e.bit) := by
  simp [EventUnit.has, EventUnit.acknowledge, e.bit_lt]

variable {s t : State}

/-- An event without a detail leaves slots and the flags of those events alone. -/
theorem EventSafe.raise (h : EventSafe s) {e : EdgeEvent} (he : e.plain = true) : EventSafe (s.raise e) := by
  obtain ⟨h1, h2, h3, h4, h5⟩ := h
  have hne {e' : EdgeEvent} (he' : e'.plain = false) : (s.events.mark e).has e' = s.events.has e' :=
    EventUnit.has_mark_ne _ fun h => by rw [h, he'] at he; cases he
  exact ⟨h1.trans (hne rfl).symm, h2.trans (hne rfl).symm, h3.trans (hne rfl).symm, h4.trans (hne rfl).symm, h5.trans (hne rfl).symm⟩

theorem EventSafe.commandRefused (h : EventSafe s) (why : CommandReason) (k g : Byte) (v n : Nat) :
    EventSafe (s.commandRefused why k g v n) := by
  obtain ⟨h1, h2, h3, h4, -⟩ := h
  have hne {e' : EdgeEvent} (he : EdgeEvent.commandRefused ≠ e') := EventUnit.has_mark_ne s.events he
  exact ⟨h1.trans (hne (by decide)).symm, h2.trans (hne (by decide)).symm, h3.trans (hne (by decide)).symm,
    h4.trans (hne (by decide)).symm, (putDetail_isSome ..).trans (EventUnit.has_mark_self ..).symm⟩

theorem EventSafe.pageFull (h : EventSafe s) : EventSafe s.pageFull := by
  unfold State.pageFull
  split
  · exact h
  · exact EventSafe.raise (e := .pageFull) (EventSafe.raise (e := .pageReady) h rfl) rfl

theorem EventSafe.commit (h : EventSafe s) (l : EndingLine) : EventSafe (s.commit l).state :=
  commit_keeps (P := EventSafe) (fun _ => EventSafe.pageFull) (fun _ _ _ _ _ _ h => h) l h

theorem EventSafe.closePage (h : EventSafe s) : EventSafe s.closePage := by
  unfold State.closePage
  split
  · exact h
  · exact EventSafe.raise (e := .pageReady) h rfl

/-- R188: an acknowledgement empties the slot of every event whose flag it clears. -/
theorem EventSafe.acknowledge (h : EventSafe s) (ack : BitVec 16) : EventSafe (s.setEvents (s.events.acknowledge ack)) := by
  obtain ⟨h1, h2, h3, h4, h5⟩ := h
  have slot {ρ : Type} {o : Option (Detail ρ)} {e : EdgeEvent} (ho : o.isSome = s.events.has e) :
      (if ack.getLsbD e.bit then none else o).isSome = (s.events.acknowledge ack).has e := by
    rw [EventUnit.has_acknowledge, ← ho]
    cases ack.getLsbD e.bit <;> simp
  exact ⟨slot h1, slot h2, slot h3, slot h4, slot h5⟩

/-- A state that changes in neither flags nor slots stays as safe as it was. -/
theorem EventSafe.congr (h : EventSafe s) (he : t.events = s.events) : EventSafe t := by
  simpa only [EventSafe, he] using h

theorem EventSafe.move {o : Origin} (m : Move o s t) (h : EventSafe s) : EventSafe t := by
  have hcommit (u : State) (l : EndingLine) (hu : EventSafe u) : EventSafe (u.commit l).state := hu.commit l
  have hother {e e' : EdgeEvent} (hne : e ≠ e') := EventUnit.has_mark_ne s.events hne
  obtain ⟨h1, h2, h3, h4, h5⟩ := id h
  cases m with
  | raise e he => exact h.raise he
  | faceFault =>
    exact ⟨(putDetail_isSome ..).trans (EventUnit.has_mark_self ..).symm, h2.trans (hother (by decide)).symm,
      h3.trans (hother (by decide)).symm, h4.trans (hother (by decide)).symm, h5.trans (hother (by decide)).symm⟩
  | glyphMissing =>
    exact ⟨h1.trans (hother (by decide)).symm, (putDetail_isSome ..).trans (EventUnit.has_mark_self ..).symm,
      h3.trans (hother (by decide)).symm, h4.trans (hother (by decide)).symm, h5.trans (hother (by decide)).symm⟩
  | tableFault =>
    exact ⟨h1.trans (hother (by decide)).symm, h2.trans (hother (by decide)).symm,
      (putDetail_isSome ..).trans (EventUnit.has_mark_self ..).symm, h4.trans (hother (by decide)).symm, h5.trans (hother (by decide)).symm⟩
  | noteFault =>
    exact ⟨h1.trans (hother (by decide)).symm, h2.trans (hother (by decide)).symm, h3.trans (hother (by decide)).symm,
      (putDetail_isSome ..).trans (EventUnit.has_mark_self ..).symm, h5.trans (hother (by decide)).symm⟩
  | commandRefused => exact h.commandRefused ..
  | acknowledge ack => exact h.acknowledge ack
  | beginTable | faultTable | defineGlyph | endTable | dropTable =>
    obtain ⟨g, hg⟩ := setTable_frame s _ _
    exact h.congr (by rw [hg]; rfl)
  | appendNew code cls =>
    obtain ⟨c, p, hj⟩ := join_eq s (s.lookup code cls).1
    exact afterAppend_keeps hcommit cls (h.congr (by rw [hj]; rfl))
  | reappend e rest =>
    obtain ⟨c, p, hj⟩ := join_eq (s.setComp { s.comp with carry := rest }) e
    exact afterAppend_keeps hcommit e.cls (h.congr (by rw [hj]; rfl))
  | pageFull => exact h.pageFull
  | breakTest => exact breakTest_keeps hcommit h
  | endParagraph => exact endParagraph_keeps hcommit (fun _ hu => hu) h
  | closePage => exact h.closePage
  | grant =>
    obtain ⟨r, c, p, hg⟩ := grant_frame s
    exact h.congr (by rw [hg]; rfl)
  | showReady i =>
    obtain ⟨p, n, u, rfl, ⟨-, he⟩ | ⟨x, -, he⟩⟩ := showReady_frame s i
    · rw [he]
      exact h
    · rw [he]
      exact EventSafe.commandRefused h ..
  | closeNote id =>
    obtain ⟨p, hp⟩ := mapComposingPage_eq s _
    exact h.congr (by rw [hp]; rfl)
  | drawHeld x =>
    obtain ⟨q, n, p, hd⟩ := drawHeld_frame s x
    exact h.congr (by rw [hd]; rfl)
  | drawTested x =>
    obtain ⟨q, n, p, hd⟩ := drawHeld_frame (s.setCmd { s.cmd with executing := none }) x
    exact h.congr (by rw [hd]; rfl)
  | queueHold =>
    obtain ⟨q, hq⟩ := queueHold_frame s
    exact h.congr (by rw [hq])
  | dispatch _ _ hd =>
    obtain ⟨i, plane, k, r, -, -, -, rfl⟩ := dispatchAbove_eq_some hd
    exact h
  | _ => exact h

theorem EventSafe.reset : EventSafe State.reset := ⟨rfl, rfl, rfl, rfl, rfl⟩

end Sys2Proof.Machine
end

section

open Sys2Proof Sys2Proof.Machine

/-- Settles O60: every move that raises an event with a detail fills the event's slot, and an acknowledgement empties the slots of the flags it clears. -/
theorem stepKeepsEventSafe : Obligations.StepKeepsEventSafe := by
  intro s t hs hstep
  refine step_keeps (fun _ _ _ => EventSafe.move) (fun _ _ h => h) (fun u v _ hr => ?_) (fun u i h _ => ?_) (fun _ h => h) hs hstep
  · cases hr
    exact EventSafe.reset
  · unfold State.sendEnded State.freeRetired
    split
    · exact h
    · split <;> exact h

end

section
/-! PROOFS. Chapter 3: the glyph store keeps to its budgets. -/

namespace Sys2Proof.Machine

open Sys2Proof

variable {s t : State}

theorem ComposeFrame.glyphs_eq (h : ComposeFrame s t) : t.glyphs = s.glyphs := by
  obtain ⟨c, p, e, rfl⟩ := h; rfl

/-! ### A table is rewritten -/

theorem mem_of_mem_setIfInBounds {α : Type} {n : Nat} {v : Vector α n} {k : Nat} {x y : α} (h : y ∈ (v.setIfInBounds k x).toList) :
    y = x ∨ y ∈ v.toList := by
  rw [Vector.toList_setIfInBounds] at h
  rcases List.mem_or_eq_of_mem_set h with h | h
  · exact .inr h
  · exact .inl h

theorem mem_of_tableAt {id : Nat} {x : GlyphTable} (h : s.tableAt id = some x) : x ∈ s.glyphs.toList := by
  have : s.glyphs.toList[id]? = some x := by simpa [State.tableAt] using h
  exact List.mem_of_getElem? this

theorem sum_map_set {α : Type} (f : α → Nat) {l : List α} {k : Nat} {x : α} (y : α) (h : l[k]? = some x) :
    ((l.set k y).map f).sum + f x = (l.map f).sum + f y := by
  induction l generalizing k with
  | nil => simp at h
  | cons z l ih => cases k with
    | zero =>
      cases h
      simp only [List.set_cons_zero, List.map_cons, List.sum_cons]
      omega
    | succ k =>
      have := ih (k := k) (by simpa using h)
      simp only [List.set_cons_succ, List.map_cons, List.sum_cons]
      omega

/-- R35: the reserved total after a table is rewritten. -/
theorem reservedTotal_setTable {id : Nat} {x : GlyphTable} (y : GlyphTable) (h : s.tableAt id = some x) :
    reservedTotal (s.setTable id y) + x.budget = reservedTotal s + y.budget := by
  have hx : s.glyphs.toList[id]? = some x := by simpa [State.tableAt] using h
  rw [setTable_eq]
  simp only [reservedTotal, State.setGlyphs_glyphs, Vector.toList_setIfInBounds]
  exact sum_map_set _ y hx

/-- A table that is rewritten within the total is as safe as its new record. -/
theorem StoreSafe.setTable (h : StoreSafe s) {id : Nat} {x y : GlyphTable} (hx : s.tableAt id = some x) (hy : y.Safe)
    (hb : reservedTotal s + y.budget ≤ 786432 + x.budget) : StoreSafe (s.setTable id y) := by
  refine ⟨?_, fun z hz => ?_⟩
  · have := reservedTotal_setTable y hx
    omega
  · rw [setTable_eq] at hz
    rcases mem_of_mem_setIfInBounds hz with rfl | hz
    · exact hy
    · exact h.2 z hz

/-! ### The records of a table -/

theorem GlyphTable.empty_safe : GlyphTable.empty.Safe := by
  refine ⟨Nat.le_refl 0, Nat.zero_le _, List.Pairwise.nil, (fun g hg => by cases hg), List.length_replicate, fun k hk => ?_, fun _ => rfl⟩
  rw [List.eq_of_mem_replicate hk]
  decide

/-- A table that is not EMPTY stays safe when its state alone changes. -/
theorem GlyphTable.Safe.setState {x : GlyphTable} (h : x.Safe) {st : TableState} (hst : st ≠ .empty) :
    ({ x with state := st } : GlyphTable).Safe := by
  obtain ⟨h1, h2, h3, h4, h5, h6, -⟩ := h
  exact ⟨h1, h2, h3, h4, h5, h6, fun he => absurd he hst⟩

/-- R39: a table begun has 256 kern values in range. -/
theorem begunTable_safe (r : Record) (budget : Nat) :
    ({ state := .loading, budget := budget, fill := 0, glyphs := [], kern := clampedKern r } : GlyphTable).Safe := by
  refine ⟨Nat.zero_le _, Nat.zero_le _, List.Pairwise.nil, (fun g hg => by cases hg), (by simp [clampedKern, sentKern]), fun k hk => ?_,
    fun he => by cases he⟩
  obtain ⟨n, -, rfl⟩ := List.mem_map.1 hk
  exact clampInt_within (by decide) n

/-- R42: run bytes that decode give each pixel of the rows that are left one value. -/
theorem decodeRuns_length {width height row rows : Nat} {bytes : List Byte} {l : List Level} (hrow : row ≤ width) (hrows : rows ≤ height)
    (h : decodeRuns width height row rows bytes = some l) : l.length + row + rows * width = height * width := by
  induction bytes generalizing row rows l with
  | nil =>
    unfold decodeRuns at h
    split at h
    · next hc =>
      simp only [Bool.and_eq_true, decide_eq_true_eq] at hc
      cases h
      simp [hc]
    · cases h
  | cons b t ih =>
    unfold decodeRuns at h
    dsimp only at h
    split at h
    · cases h
    · next hc =>
      simp only [Bool.or_eq_true, decide_eq_true_eq, not_or, not_le, not_lt] at hc
      obtain ⟨l', hl', rfl⟩ := Option.map_eq_some_iff.1 h
      rw [List.length_append, List.length_replicate]
      split at hl'
      · next hw =>
        have := ih (Nat.zero_le _) hc.1 hl'
        rw [Nat.succ_mul] at this
        omega
      · have := ih hc.2 hrows hl'
        omega

theorem decodeBitmap_length {width height : Nat} {bytes : List Byte} {l : List Level} (h : decodeBitmap width height bytes = some l) :
    l.length = width * height := by
  unfold decodeBitmap at h
  split at h
  · next hz =>
    split at h
    · cases h
      rcases (by simpa using hz : width = 0 ∨ height = 0) with rfl | rfl <;> simp
    · cases h
  · have := decodeRuns_length (Nat.zero_le _) (Nat.zero_le _) h
    rw [Nat.mul_comm]
    omega

/-- R41: a glyph record that passes the checks is in range, above the codes of its table, and within its budget. -/
theorem glyphChecked_ok {x : GlyphTable} {r : Record} {g : Glyph} (h : glyphChecked x r = .ok g) :
    g.Safe ∧ (∀ c, x.lastCode = some c → c < g.code) ∧ x.glyphs.length < 4096 ∧ x.fill + (r.length - 2) ≤ x.budget := by
  unfold glyphChecked at h
  split at h
  · cases h
  next hfield =>
  split at h
  · cases h
  next horder =>
  split at h
  · cases h
  next hcount =>
  split at h
  · cases h
  next hfill =>
  split at h
  · cases h
  · next l hl =>
    cases h
    simp only [Bool.or_eq_true, decide_eq_true_eq, not_or, not_lt, Config.maxAdvance, Config.maxSide] at hfield
    obtain ⟨⟨⟨h1, h2⟩, h3⟩, h4⟩ := hfield
    refine ⟨⟨h1, h2, h3, h4, decodeBitmap_length hl⟩, fun c hc => ?_, not_le.1 hcount, not_lt.1 hfill⟩
    rw [hc] at horder
    exact Nat.lt_of_not_le fun hle => horder (decide_eq_true hle)

theorem pairwise_append_last {l : List Glyph} (hl : l.Pairwise fun g h => g.code < h.code) {g : Glyph}
    (hg : ∀ c, l.getLast?.map (·.code) = some c → c < g.code) : (l ++ [g]).Pairwise fun g h => g.code < h.code := by
  refine List.pairwise_append.2 ⟨hl, List.pairwise_singleton _ _, fun x hx y hy => ?_⟩
  cases List.mem_singleton.1 hy
  rcases List.eq_nil_or_concat l with rfl | ⟨m, z, rfl⟩
  · cases hx
  · have hz := hg z.code (by simp)
    rw [List.concat_eq_append, List.pairwise_append] at hl
    rw [List.concat_eq_append] at hx
    rcases List.mem_append.1 hx with hx | hx
    · exact Nat.lt_trans (hl.2.2 x hx z (by simp)) hz
    · cases List.mem_singleton.1 hx
      exact hz

/-- R43: a checked glyph record joins a LOADING table. -/
theorem GlyphTable.Safe.addGlyph {x : GlyphTable} (hx : x.Safe) {r : Record} {g : Glyph} (hs : x.state = .loading)
    (hg : glyphChecked x r = .ok g) : ({ x with fill := x.fill + (r.length - 2), glyphs := x.glyphs ++ [g] } : GlyphTable).Safe := by
  obtain ⟨-, -, h3, h4, h5, h6, -⟩ := hx
  obtain ⟨hsafe, hlast, hcount, hfill⟩ := glyphChecked_ok hg
  refine ⟨hfill, ?_, pairwise_append_last h3 hlast, fun y hy => ?_, h5, h6, fun he => ?_⟩
  · rw [List.length_append, List.length_singleton]
    exact hcount
  · rcases List.mem_append.1 hy with hy | hy
    · exact h4 y hy
    · cases List.mem_singleton.1 hy
      exact hsafe
  · rw [hs] at he
    cases he

/-- R38: a table that may be begun is EMPTY, and the store has room. -/
theorem tableBeginRefusal_none {id budget : Nat} (h : tableBeginRefusal s id budget = none) :
    ∃ x, s.tableAt id = some x ∧ x.state = .empty ∧ reservedTotal s + budget ≤ 786432 := by
  unfold tableBeginRefusal at h
  split at h
  · cases h
  · next x hx =>
    split at h
    · cases h
    · next he =>
      split at h
      · cases h
      · next hb => exact ⟨x, hx, not_not.1 he, not_lt.1 hb⟩

theorem StoreSafe.congr (h : StoreSafe s) (hg : t.glyphs = s.glyphs) : StoreSafe t := by
  simpa only [StoreSafe, reservedTotal, hg] using h

theorem StoreSafe.move {o : Origin} (m : Move o s t) (h : StoreSafe s) : StoreSafe t := by
  have hsafe {id : Nat} {x : GlyphTable} (hx : s.tableAt id = some x) : x.Safe := h.2 x (mem_of_tableAt hx)
  have hbudget {b : Nat} : reservedTotal s + b ≤ 786432 + b := Nat.add_le_add_right h.1 b
  cases m with
  | beginTable r id budget hok =>
    obtain ⟨x, hx, -, hroom⟩ := tableBeginRefusal_none hok
    exact h.setTable hx (begunTable_safe r budget) (Nat.le_trans hroom (Nat.le_add_right _ _))
  | faultTable id x hx => exact h.setTable hx ((hsafe hx).setState (by decide)) hbudget
  | defineGlyph id x r g hx hs hg => exact h.setTable hx ((hsafe hx).addGlyph hs hg) hbudget
  | endTable id x hx => exact h.setTable hx ((hsafe hx).setState (by decide)) hbudget
  | dropTable id x hx => exact h.setTable hx GlyphTable.empty_safe (Nat.le_trans h.1 (Nat.le_add_right _ _))
  | appendNew code cls => exact h.congr ((join_frame s _).trans (afterAppend_frame _ cls)).glyphs_eq
  | reappend e rest =>
    exact h.congr ((join_frame (s.setComp { s.comp with carry := rest }) e).trans (afterAppend_frame _ e.cls)).glyphs_eq
  | pageFull => exact h.congr (pageFull_frame s).glyphs_eq
  | breakTest => exact h.congr (breakTest_frame s).glyphs_eq
  | endParagraph => exact h.congr (endParagraph_frame s).glyphs_eq
  | closePage =>
    unfold State.closePage
    split <;> exact h
  | grant =>
    obtain ⟨r, c, p, hg⟩ := grant_frame s
    exact h.congr (by rw [hg]; rfl)
  | showReady i =>
    obtain ⟨p, n, u, rfl, ⟨-, he⟩ | ⟨x, -, he⟩⟩ := showReady_frame s i <;> exact h.congr (by rw [he]; rfl)
  | closeNote id =>
    obtain ⟨p, hp⟩ := mapComposingPage_eq s _
    exact h.congr (by rw [hp]; rfl)
  | drawHeld x =>
    obtain ⟨q, n, p, hd⟩ := drawHeld_frame s x
    exact h.congr (by rw [hd]; rfl)
  | drawTested x =>
    obtain ⟨q, n, p, hd⟩ := drawHeld_frame (s.setCmd { s.cmd with executing := none }) x
    exact h.congr (by rw [hd]; rfl)
  | queueHold =>
    obtain ⟨q, hq⟩ := queueHold_frame s
    exact h.congr (by rw [hq])
  | dispatch _ _ hd =>
    obtain ⟨i, plane, k, r, -, -, -, rfl⟩ := dispatchAbove_eq_some hd
    exact h
  | _ => exact h

theorem StoreSafe.reset : StoreSafe State.reset := by
  refine ⟨by decide, fun x hx => ?_⟩
  have : x = GlyphTable.empty := by
    have hx : x ∈ (Vector.replicate 16 GlyphTable.empty).toList := hx
    rw [Vector.toList_replicate] at hx
    exact List.eq_of_mem_replicate hx
  rw [this]
  exact GlyphTable.empty_safe

end Sys2Proof.Machine
end

section

open Sys2Proof Sys2Proof.Machine

/-- Settles O53: the five moves that rewrite a table keep its record in bounds and the reserved total within the store. -/
theorem stepKeepsStoreSafe : Obligations.StepKeepsStoreSafe := by
  intro s t hs hstep
  refine step_keeps (fun _ _ _ => StoreSafe.move) (fun _ _ h => h) (fun u v _ hr => ?_) (fun u i h _ => ?_) (fun _ h => h) hs hstep
  · cases hr
    exact StoreSafe.reset
  · unfold State.sendEnded State.freeRetired
    split
    · exact h
    · split <;> exact h

end

section
/-! PROOFS. Chapters 7, 9 and 11: the parameters and the Planner's counts keep to their ranges. -/

namespace Sys2Proof.Machine

open Sys2Proof

variable {s t : State}

/-! ### Requests and tiles -/

theorem mem_modifyAt {α : Type} {f : α → α} {n : Nat} {l : List α} {y : α} (h : y ∈ modifyAt f n l) : y ∈ l ∨ ∃ x ∈ l, y = f x := by
  obtain ⟨k, hk⟩ := List.mem_iff_getElem?.1 h
  rw [getElem?_modifyAt] at hk
  split at hk
  · obtain ⟨x, hx, rfl⟩ := Option.map_eq_some_iff.1 hk
    exact .inr ⟨x, List.mem_of_getElem? hx, rfl⟩
  · exact .inl (List.mem_of_getElem? hk)

/-- R155 to R157: a queue after an arrival holds its own requests, the new one, and what a request becomes that takes it in. -/
theorem mem_enqueue {q : List Request} {new r : Request} (h : r ∈ enqueue q new) :
    r ∈ q ∨ r = new ∨ ∃ p ∈ q, r = Request.absorb new p ∨ r = Request.absorbAny new p := by
  unfold enqueue at h
  split at h
  · rcases mem_modifyAt h with h | ⟨p, hp, h⟩
    · exact .inl h
    · exact .inr (.inr ⟨p, hp, .inl h⟩)
  · split at h
    · rcases List.mem_append.1 h with h | h
      · exact .inl h
      · exact .inr (.inl (List.mem_singleton.1 h))
    · split at h
      · rcases mem_modifyAt h with h | ⟨p, hp, h⟩
        · exact .inl h
        · exact .inr (.inr ⟨p, hp, .inr h⟩)
      · exact .inl h

theorem enqueue_priority_le {q : List Request} {new : Request} {n : Nat} (hq : ∀ r ∈ q, r.priority ≤ n) (hnew : new.priority ≤ n) :
    ∀ r ∈ enqueue q new, r.priority ≤ n := by
  intro r hr
  rcases mem_enqueue hr with hr | rfl | ⟨p, hp, rfl | rfl⟩
  · exact hq r hr
  · exact hnew
  · exact Nat.max_le.2 ⟨hq p hp, hnew⟩
  · exact Nat.max_le.2 ⟨hq p hp, hnew⟩

theorem Params.Safe.priority_le {p : Params} (h : p.Safe) (source : Source) : p.priority source ≤ 3 := by
  obtain ⟨-, -, -, -, -, h1, h2, h3, h4, h5, -⟩ := h
  cases source <;> assumption

/-- The numbers of two rising lists, put into one, rise, and are those of both. -/
theorem foldr_insertNat_sorted {l m : List Nat} (h : m.Pairwise (· < ·)) : (l.foldr insertNat m).Pairwise (· < ·) := by
  induction l with
  | nil => exact h
  | cons x l ih => exact insertNat_sorted ih

theorem mem_foldr_insertNat {x : Nat} {l m : List Nat} : x ∈ l.foldr insertNat m ↔ x ∈ l ∨ x ∈ m := by
  induction l with
  | nil => simp
  | cons y l ih => rw [List.foldr_cons, mem_insertNat, ih, List.mem_cons, or_assoc]

/-! ### The moves -/

theorem PlannerSafe.compose (hf : ComposeFrame s t) (h : PlannerSafe s) : PlannerSafe t := by
  obtain ⟨c, p, e, rfl⟩ := hf
  exact h

theorem PlannerSafe.enqueue (h : PlannerSafe s) (source : Source) (mode : Mode) (q : Rect) : PlannerSafe (s.enqueue source mode q) := by
  obtain ⟨hparams, htiles, hchain, hsorted, hlt, hflip, hqueue, hheld⟩ := h
  exact ⟨hparams, htiles, hchain, hsorted, hlt, hflip, enqueue_priority_le hqueue (hparams.priority_le source), hheld⟩

/-- R134: an empty hold set is in range. -/
theorem PlannerSafe.emptyHold (h : PlannerSafe s) : PlannerSafe (s.setNotes s.notes.emptyHold) := by
  obtain ⟨hparams, htiles, -, -, -, hflip, hqueue, hheld⟩ := h
  exact ⟨hparams, htiles, Nat.zero_lt_succ 7, List.Pairwise.nil, (fun k hk => by cases hk), hflip, hqueue, hheld⟩

theorem PlannerSafe.queueHold (h : PlannerSafe s) : PlannerSafe s.queueHold := by
  unfold State.queueHold
  split
  · exact h.emptyHold
  · exact h.emptyHold.enqueue ..

/-- R132: the eighth paint releases the hold set, so that fewer than eight stay in it. -/
theorem PlannerSafe.holdTiles (h : PlannerSafe s) {tiles : List Nat} (ht : ∀ k ∈ tiles, k < 1200) : PlannerSafe (s.holdTiles tiles) := by
  unfold State.holdTiles State.queueHold
  dsimp only
  obtain ⟨hparams, htiles, hchain, hsorted, hlt, hflip, hqueue, hheld⟩ := id h
  split
  · split
    · exact h.emptyHold
    · exact h.emptyHold.enqueue ..
  · next hc =>
    refine ⟨hparams, htiles, not_le.1 hc, foldr_insertNat_sorted hsorted, fun k hk => ?_, hflip, hqueue, hheld⟩
    rcases mem_foldr_insertNat.1 hk with hk | hk
    · exact ht k hk
    · exact hlt k hk

theorem PlannerSafe.drawHeld (h : PlannerSafe s) {x : HeldPaint} (ht : ∀ k ∈ x.tiles, k < 1200) : PlannerSafe (s.drawHeld x) := by
  obtain ⟨p, hp⟩ := redraw_frame s x.lines
  rw [State.drawHeld, hp]
  exact PlannerSafe.holdTiles (s := s.setPlanes p) h ht

theorem PlannerSafe.unhold (h : PlannerSafe s) : PlannerSafe (s.setCmd { s.cmd with executing := none }) := by
  obtain ⟨hparams, htiles, hchain, hsorted, hlt, hflip, hqueue, -⟩ := h
  exact ⟨hparams, htiles, hchain, hsorted, hlt, hflip, hqueue, fun x hx => by cases hx⟩

/-- R163: the counter rises only while it is below the interval between FULL flips. -/
theorem PlannerSafe.flipRequest (h : PlannerSafe s) : PlannerSafe s.flipRequest := by
  obtain ⟨hparams, htiles, hchain, hsorted, hlt, hflip, hqueue, hheld⟩ := h
  have hcount : (if flipFull s.planner s.params.fullEvery = true then 0 else s.planner.flipCounter + 1) ≤ 32 := by
    split
    · exact Nat.zero_le _
    · next hfull =>
      obtain ⟨-, -, -, -, -, -, -, -, -, -, -, ⟨-, hevery⟩, -⟩ := hparams
      simp only [flipFull, Bool.or_eq_true, decide_eq_true_eq, not_or, not_le] at hfull
      omega
  have hcleared : PlannerSafe (s.setPlanner { s.planner with
      queue := []
      flipCounter := if flipFull s.planner s.params.fullEvery = true then 0 else s.planner.flipCounter + 1
      fullNext := false }) :=
    ⟨hparams, htiles, hchain, hsorted, hlt, hcount, (fun r hr => by cases hr), hheld⟩
  exact hcleared.emptyHold.enqueue ..

theorem PlannerSafe.showReady (h : PlannerSafe s) (i : PlaneId) : PlannerSafe (s.showReady i) := by
  have hflip : PlannerSafe (s.setPlanes (flipPlanes s.planes s.lanes i)).flipRequest :=
    PlannerSafe.flipRequest (s := s.setPlanes (flipPlanes s.planes s.lanes i)) h
  unfold State.showReady State.supersede
  split
  · exact hflip
  · exact hflip.unhold

theorem PlannerSafe.move {o : Origin} (m : Move o s t) (h : PlannerSafe s) : PlannerSafe t := by
  obtain ⟨hparams, htiles, hchain, hsorted, hlt, hflip, hqueue, hheld⟩ := id h
  cases m with
  | params p hp => exact ⟨hp hparams, htiles, hchain, hsorted, hlt, hflip, hqueue, hheld⟩
  | tiles v hv => exact ⟨hparams, hv htiles, hchain, hsorted, hlt, hflip, hqueue, hheld⟩
  | clearQueue => exact ⟨hparams, htiles, hchain, hsorted, hlt, Nat.zero_le _, (fun r hr => by cases hr), hheld⟩
  | request source mode q => exact h.enqueue source mode q
  | queueHold => exact h.queueHold
  | drawHeld x hp ht => exact h.drawHeld ht
  | drawTested x he => exact h.unhold.drawHeld (hheld x he)
  | unhold => exact h.unhold
  | hold _ x i hi hc ht =>
    refine ⟨hparams, htiles, hchain, hsorted, hlt, hflip, hqueue, fun y hy => ?_⟩
    cases hy
    exact ht
  | showReady i => exact h.showReady i
  | dispatch _ _ hd =>
    obtain ⟨i, plane, k, r, -, -, -, rfl⟩ := dispatchAbove_eq_some hd
    refine ⟨hparams, htiles, hchain, hsorted, hlt, hflip, fun r hr => hqueue r ?_, hheld⟩
    rw [removeAt_eq_eraseIdx] at hr
    exact List.mem_of_mem_eraseIdx hr
  | beginTable | faultTable | defineGlyph | endTable | dropTable => rwa [setTable_eq]
  | appendNew code cls => exact h.compose ((join_frame s _).trans (afterAppend_frame _ cls))
  | reappend e rest =>
    exact PlannerSafe.compose ((join_frame (s.setComp { s.comp with carry := rest }) e).trans (afterAppend_frame _ e.cls)) h
  | pageFull => exact h.compose (pageFull_frame s)
  | breakTest => exact h.compose (breakTest_frame s)
  | endParagraph => exact h.compose (endParagraph_frame s)
  | closePage =>
    unfold State.closePage
    split <;> exact h
  | grant =>
    obtain ⟨r, c, p, hg⟩ := grant_frame s
    rwa [hg]
  | closeNote id =>
    obtain ⟨p, hp⟩ := mapComposingPage_eq s fun page => { page with notes := Machine.closeNote s.comp.nextOrdinal id page.notes }
    rwa [hp]
  | duration m d => cases m <;> exact h
  | _ => exact h

theorem Params.reset_safe : Params.reset.Safe := by
  unfold Params.Safe
  decide

theorem PlannerSafe.reset : PlannerSafe State.reset := by
  refine ⟨Params.reset_safe, fun x hx => ?_, by decide, List.Pairwise.nil, (fun k hk => by cases hk), by decide, (fun r hr => by cases hr),
    fun x hx => by cases hx⟩
  have hx : x ∈ (Vector.replicate 1200 ({ residue := 255, coarse := false } : Tile)).toList := hx
  rw [Vector.toList_replicate] at hx
  rw [List.eq_of_mem_replicate hx]

end Sys2Proof.Machine
end

section

open Sys2Proof Sys2Proof.Machine

/-- Settles O59: the parameters are clamped, the eighth paint releases the hold set, and the flip counter returns to 0 at the interval in force. -/
theorem stepKeepsPlannerSafe : Obligations.StepKeepsPlannerSafe := by
  intro s t hs hstep
  refine step_keeps (fun _ _ _ => PlannerSafe.move) (fun _ _ h => h) (fun u v _ hr => ?_) (fun u i h _ => ?_) (fun u h => h) hs hstep
  · cases hr
    exact PlannerSafe.reset
  · unfold State.sendEnded State.freeRetired
    split
    · exact h
    · split <;> exact h

end

section
/-! PROOFS. Chapters 9 and 10: the lanes stay apart and in order. -/

namespace Sys2Proof.Machine

open Sys2Proof

variable {s t : State}

/-! ### Rectangles -/

/-- Two rectangles that have one tile in common meet. -/
theorem Rect.meets_of_has {p q : Rect} {k : Nat} (hp : p.has k = true) (hq : q.has k = true) : p.meets q = true := by
  simp only [Rect.has, Rect.meets, Bool.and_eq_true, decide_eq_true_eq] at *
  omega

/-- A rectangle that no busy lane blocks has no tile of a busy lane. -/
theorem not_holds_of_not_blocks {l : LaneController} {q : Rect} (hb : l.blocks q = false) {k : Nat} (hq : q.has k = true) (j : Fin 4) :
    l.lane[j].holds k = false := by
  unfold Lane.holds
  cases hr : l.lane[j].rect? with
  | none => rfl
  | some p =>
    have hmem : l.lane[j] ∈ l.lane.toList := by simp
    have := List.any_eq_false.1 hb _ hmem
    simp only [hr] at this
    by_contra hp
    exact this (Rect.meets_of_has (by simpa using hp) hq)

/-! ### Lanes -/

theorem getElem_set_fin {α : Type} (v : Vector α 4) (i j : Fin 4) (x : α) : (v.set i x)[j] = if j = i then x else v[j] := by
  simp only [Fin.getElem_fin, Vector.getElem_set, Fin.ext_iff, eq_comm]

@[simp] theorem LaneController.feed_lane (l : LaneController) : l.feed.lane = l.lane := by
  unfold LaneController.feed
  split <;> rfl

@[simp] theorem LaneController.feed_order (l : LaneController) : l.feed.order = l.order := by
  unfold LaneController.feed
  split <;> rfl

@[simp] theorem LaneController.feed_rx (l : LaneController) : l.feed.rx = l.rx := by
  unfold LaneController.feed
  split <;> rfl

theorem LaneController.feed_tx (l : LaneController) : l.feed.tx = if l.tx = none then l.order.head? else l.tx := by
  unfold LaneController.feed
  cases h : l.tx <;> simp [h]

theorem idleLane_idle {l : LaneController} {i : Fin 4} (h : l.idleLane = some i) : l.lane[i].state = .idle := by
  simpa using List.find?_some h

/-- R158: an eligible request is at or above the floor, and no busy lane blocks it. -/
theorem firstEligible_not_blocks {floor : Nat} {l : LaneController} {ahead : List Rect} {q : List (Nat × Request)} {k : Nat} {r : Request}
    (h : firstEligible floor l ahead q = some (k, r)) : l.blocks r.rect = false := by
  induction q generalizing ahead with
  | nil => cases h
  | cons p q ih =>
    unfold firstEligible at h
    split at h
    · next hc =>
      cases h
      simp only [Bool.and_eq_true, Bool.not_eq_true'] at hc
      exact hc.1.2
    · exact ih h

/-! ### The laws -/

/-- The laws of LaneSafe by name. With `free`, the transmitter may stand free while lanes wait in the transmit order, as it does within a send's end. -/
structure LaneLaws (free : Bool) (s : State) : Prop where
  queue : s.planner.queue.length ≤ 16
  apart : ∀ i j : Fin 4, ∀ k, i ≠ j → s.lanes.lane[i].holds k = true → s.lanes.lane[j].holds k = false
  nodup : s.lanes.order.Nodup
  order : ∀ i : Fin 4, i ∈ s.lanes.order ↔ s.lanes.lane[i].state = .sending
  tx : s.lanes.tx = s.lanes.order.head? ∨ free = true ∧ s.lanes.tx = none
  update : ∀ i : Fin 4, s.lanes.lane[i].state ≠ .idle → s.lanes.lane[i].update.isSome = true
  showing_nodup : s.planes.showing.Nodup
  showing : ∀ i ∈ s.planes.showing, s.lanes.lane[i].busy = true ∧ s.lanes.lane[i].update.map (·.source) = some .flip
  rx : ∀ got, s.lanes.rx = some got → got.length ≤ 2

theorem laneSafe_iff : LaneSafe s ↔ LaneLaws false s := by
  constructor
  · rintro ⟨h1, h2, h3, h4, h5, h6, h7, h8, h9⟩
    exact ⟨h1, h2, h3, h4, .inl h5, h6, h7, h8, h9⟩
  · rintro ⟨h1, h2, h3, h4, h5, h6, h7, h8, h9⟩
    exact ⟨h1, h2, h3, h4, by simpa using h5, h6, h7, h8, h9⟩

variable {free : Bool}

/-- The laws speak of the lanes, the showing lanes and the length of the queue. -/
theorem LaneLaws.congr (h : LaneLaws free s) (hl : t.lanes = s.lanes) (hw : t.planes.showing = s.planes.showing)
    (hq : t.planner.queue.length ≤ 16) : LaneLaws free t := by
  obtain ⟨-, h2, h3, h4, h5, h6, h7, h8, h9⟩ := h
  refine ⟨hq, ?_, ?_, ?_, ?_, ?_, ?_, ?_, ?_⟩ <;> simp only [hl, hw] <;> assumption

theorem Lane.busy_iff {l : Lane} : l.busy = true ↔ l.state = .sending ∨ l.state = .waiting := by simp [Lane.busy]

/-- Only a busy lane holds tiles. -/
theorem Lane.not_holds {l : Lane} (h : l.busy = false) (n : Nat) : l.holds n = false := by
  simp [Lane.holds, Lane.rect?, h]

/-- A lane that does not send is in no transmit order, and one that is not busy shows nothing. -/
theorem LaneLaws.not_mem_order (h : LaneLaws free s) {i : Fin 4} (hi : s.lanes.lane[i].state ≠ .sending) : i ∉ s.lanes.order :=
  fun hm => hi ((h.order i).1 hm)

theorem LaneLaws.not_mem_showing (h : LaneLaws free s) {i : Fin 4} (hi : s.lanes.lane[i].busy = false) : i ∉ s.planes.showing :=
  fun hm => by
    have := (h.showing i hm).1
    rw [hi] at this
    cases this

theorem LaneLaws.enqueue (h : LaneLaws free s) (source : Source) (mode : Mode) (q : Rect) : LaneLaws free (s.enqueue source mode q) :=
  h.congr rfl rfl (enqueue_length_le _ _ h.queue)

theorem LaneLaws.queueHold (h : LaneLaws free s) : LaneLaws free s.queueHold := by
  unfold State.queueHold
  split
  · exact h.congr rfl rfl h.queue
  · exact LaneLaws.enqueue (s := s.setNotes s.notes.emptyHold) (h.congr rfl rfl h.queue) ..

/-! ### What the moves do to lanes -/

/-- A lane that has no tile disturbs no other. -/
theorem apart_of_new {v : Vector Lane 4} {i : Fin 4} {x : Lane} (hv : ∀ j k : Fin 4, ∀ n, j ≠ k → v[j].holds n = true → v[k].holds n = false)
    (hx : ∀ n, x.holds n = true → ∀ j, j ≠ i → v[j].holds n = false) :
    ∀ j k : Fin 4, ∀ n, j ≠ k → (v.set i x)[j].holds n = true → (v.set i x)[k].holds n = false := by
  intro j k n hjk hj
  rw [getElem_set_fin] at hj ⊢
  split at hj
  · next e =>
    subst e
    rw [if_neg (Ne.symm hjk)]
    exact hx n hj k (Ne.symm hjk)
  · next hji =>
    split
    · next e =>
      by_contra hk
      rw [hx n (by simpa using hk) j hji] at hj
      cases hj
    · exact hv j k n hjk hj

/-- R107 and R173: a dispatch starts an IDLE lane on a rectangle that no busy lane blocks. -/
theorem LaneLaws.dispatch {floor : Nat} (h : LaneLaws free s) (hd : dispatchAbove floor s = some t) : LaneLaws free t := by
  obtain ⟨i, plane, k, r, hi, -, hr, rfl⟩ := dispatchAbove_eq_some hd
  have hidle := idleLane_idle hi
  have hfree := firstEligible_not_blocks hr
  have hnot : i ∉ s.lanes.order := h.not_mem_order (by rw [hidle]; decide)
  have hbusy : s.lanes.lane[i].busy = false := by simp only [Lane.busy, hidle]; decide
  have hshow : i ∉ s.planes.showing := h.not_mem_showing hbusy
  have hlane (j : Fin 4) : (s.lanes.start i r plane s.params s.tick).lane[j] = if j = i then
      { state := .sending, seq := s.lanes.lane[i].seq + 1, update := some
          { source := r.source, mode := r.mode, rect := r.rect, plane := plane, threshold := s.params.threshold,
            limit := s.params.limit r.mode, started := s.tick }, elapsed := 0 }
      else s.lanes.lane[j] := by
    rw [LaneController.start, LaneController.feed_lane, getElem_set_fin]
  have horder : (s.lanes.start i r plane s.params s.tick).order = s.lanes.order ++ [i] := LaneController.feed_order _
  have hshowing : ∀ j ∈ (s.planes.noteDispatch i r.source).showing, j ∈ s.planes.showing ∨ j = i ∧ r.source = .flip := by
    intro j hj
    unfold Planes.noteDispatch at hj
    split at hj
    · next hc =>
      simp only [Bool.and_eq_true, beq_iff_eq] at hc
      dsimp only at hj
      split at hj
      · exact .inl hj
      · rcases List.mem_append.1 hj with hj | hj
        · exact .inl hj
        · exact .inr ⟨List.mem_singleton.1 hj, hc.2⟩
    · exact .inl hj
  refine ⟨?queue, ?apart, ?nodup, ?order, ?tx, ?update, ?showing_nodup, ?showing, ?rx⟩
  case queue => exact Nat.le_trans (removeAt_length_le _ _) h.queue
  case apart =>
    simp only [LaneController.start, LaneController.feed_lane]
    refine apart_of_new h.apart fun n hn j _ => not_holds_of_not_blocks hfree ?_ j
    exact hn
  case nodup =>
    rw [horder]
    exact List.nodup_append.2 ⟨h.nodup, List.nodup_singleton i, fun a ha b hb => by
      rw [List.mem_singleton.1 hb]
      exact fun e => hnot (e ▸ ha)⟩
  case order =>
    intro j
    rw [horder, hlane, List.mem_append, List.mem_singleton, h.order j]
    split
    · next e => simp [e]
    · next e => simp [e]
  case tx =>
    left
    rw [horder]
    show (LaneController.feed _).tx = _
    rw [LaneController.feed_tx]
    split
    · rfl
    · next htx =>
      have htx : s.lanes.tx ≠ none := htx
      rcases h.tx with e | ⟨-, e⟩
      · show s.lanes.tx = _
        cases ho : s.lanes.order with
        | nil => rw [e, ho] at htx; exact absurd rfl htx
        | cons a l => rw [e, ho]; rfl
      · exact absurd e htx
  case update =>
    intro j
    rw [hlane]
    split
    · exact fun _ => rfl
    · exact h.update j
  case showing_nodup =>
    show (s.planes.noteDispatch i r.source).showing.Nodup
    unfold Planes.noteDispatch
    split
    · rw [if_neg (by simpa using hshow)]
      exact List.nodup_append.2 ⟨h.showing_nodup, List.nodup_singleton i, fun a ha b hb => by
        rw [List.mem_singleton.1 hb]
        exact fun e => hshow (e ▸ ha)⟩
    · exact h.showing_nodup
  case showing =>
    intro j hj
    rw [hlane]
    rcases hshowing j hj with hj | ⟨rfl, hsource⟩
    · have hji : j ≠ i := fun e => hshow (e ▸ hj)
      rw [if_neg hji]
      exact h.showing j hj
    · rw [if_pos rfl]
      exact ⟨rfl, congrArg some hsource⟩
  case rx =>
    intro got hg
    have hrx : (s.lanes.start i r plane s.params s.tick).rx = s.lanes.rx := LaneController.feed_rx _
    exact h.rx got (hrx.symm.trans hg)

/-- A lane that waits no longer leaves the showing lanes, and holds no tile any more. -/
theorem LaneLaws.endWait (h : LaneLaws free s) {i : Fin 4} (hw : s.lanes.lane[i].state = .waiting) {x : LaneState} (hx : x ≠ .sending ∧ x ≠ .waiting)
    {w : List (Fin 4)} (hwn : w.Nodup) (hws : ∀ j ∈ w, j ∈ s.planes.showing ∧ j ≠ i) {p : Planes} (hp : p.showing = w) :
    LaneLaws free ((s.setPlanes p).setLanes (s.lanes.setState i x)) := by
  have hlane (j : Fin 4) : (s.lanes.setState i x).lane[j] = if j = i then { s.lanes.lane[i] with state := x } else s.lanes.lane[j] :=
    getElem_set_fin ..
  have hnot : i ∉ s.lanes.order := h.not_mem_order (by rw [hw]; decide)
  refine ⟨h.queue, ?apart, h.nodup, ?order, h.tx, ?update, (by rw [← hp] at hwn; exact hwn), ?showing, h.rx⟩
  case apart =>
    refine apart_of_new h.apart fun n hn j _ => ?_
    have hbusy : ({ s.lanes.lane[i] with state := x } : Lane).busy = false := by
      rw [← Bool.not_eq_true, Lane.busy_iff]
      exact fun e => e.elim hx.1 hx.2
    rw [Lane.not_holds hbusy] at hn
    cases hn
  case order =>
    intro j
    show j ∈ s.lanes.order ↔ (s.lanes.setState i x).lane[j].state = _
    rw [hlane]
    split
    · next e =>
      subst e
      exact ⟨fun hm => absurd hm hnot, fun e => absurd e hx.1⟩
    · exact h.order j
  case update =>
    intro j
    show (s.lanes.setState i x).lane[j].state ≠ _ → (s.lanes.setState i x).lane[j].update.isSome = _
    rw [hlane]
    split
    · exact fun _ => h.update i (by rw [hw]; decide)
    · exact h.update j
  case showing =>
    intro j hj
    obtain ⟨hj, hji⟩ := hws j (hp ▸ hj)
    show (s.lanes.setState i x).lane[j].busy = _ ∧ (s.lanes.setState i x).lane[j].update.map _ = _
    rw [hlane, if_neg hji]
    exact h.showing j hj

/-- R182: after an abort no lane is busy. -/
theorem LaneLaws.abort (h : LaneLaws free s) {p : Planes} (hp : p.showing = []) : LaneLaws free ((s.setLanes s.lanes.abort).setPlanes p) := by
  have hlane (j : Fin 4) : s.lanes.abort.lane[j] = { s.lanes.lane[j] with state := .idle } := getElem_mapVector ..
  have hbusy (j : Fin 4) : s.lanes.abort.lane[j].busy = false := by
    rw [hlane]
    rfl
  refine ⟨h.queue, fun i j k _ _ => Lane.not_holds (hbusy j) k, List.nodup_nil, fun j => ?_, .inl rfl, fun j hj => ?_,
    (by rw [State.setPlanes_planes, hp]; exact List.nodup_nil), fun j hj => ?_, h.rx⟩
  · refine ⟨fun hm => (by cases hm), fun e => ?_⟩
    have e : s.lanes.abort.lane[j].state = .sending := e
    rw [hlane] at e
    cases e
  · have hj : s.lanes.abort.lane[j].state ≠ .idle := hj
    rw [hlane] at hj
    exact absurd rfl hj
  · rw [State.setPlanes_planes, hp] at hj
    cases hj

/-- R179: counting changes neither what a lane does nor what it holds. -/
theorem LaneLaws.count (h : LaneLaws free s) : LaneLaws free (s.setLanes { s.lanes with lane := mapVector (fun _ x => x.count) s.lanes.lane }) := by
  have hlane (j : Fin 4) : (mapVector (fun _ x => x.count) s.lanes.lane)[j] = s.lanes.lane[j].count := getElem_mapVector ..
  have hcount (l : Lane) : l.count.state = l.state ∧ l.count.update = l.update ∧ l.count.busy = l.busy ∧ ∀ k, l.count.holds k = l.holds k := by
    unfold Lane.count
    split <;> exact ⟨rfl, rfl, rfl, fun _ => rfl⟩
  refine ⟨h.queue, ?_, h.nodup, fun j => ?_, h.tx, fun j => ?_, h.showing_nodup, fun j hj => ?_, h.rx⟩ <;>
    simp only [State.setLanes_lanes, hlane, hcount]
  · exact h.apart
  · exact h.order j
  · exact h.update j
  · exact h.showing j hj

/-! ### What a send's end does to lanes -/

theorem freeRetired_frame (s : State) : ∃ p : Planes, p.showing = s.planes.showing ∧ s.freeRetired = s.setPlanes p := by
  unfold State.freeRetired
  split
  · exact ⟨s.planes, rfl, rfl⟩
  · split
    · exact ⟨s.planes, rfl, rfl⟩
    · exact ⟨_, Planes.set_showing .., rfl⟩

/-- R175: the sending lane waits, still holding its tiles. -/
theorem LaneLaws.sendEnded (h : LaneLaws false s) {i : Fin 4} (htx : s.lanes.tx = some i) : LaneLaws true (s.sendEnded i) := by
  obtain ⟨p, hp, he⟩ := freeRetired_frame (s.setLanes (s.lanes.endSend i fun p => (s.planes.get p).pixels))
  rw [State.sendEnded, he]
  have hmem : i ∈ s.lanes.order := by
    have := h.tx
    rw [htx] at this
    exact List.mem_of_mem_head? (by simpa [eq_comm] using this)
  have hsending := (h.order i).1 hmem
  have hlane (j : Fin 4) : (s.lanes.endSend i fun p => (s.planes.get p).pixels).lane[j] =
      if j = i then { s.lanes.lane[i] with state := .waiting, elapsed := 0 } else s.lanes.lane[j] := getElem_set_fin ..
  have hsame (j : Fin 4) : (s.lanes.endSend i fun p => (s.planes.get p).pixels).lane[j].update = s.lanes.lane[j].update ∧
      (s.lanes.endSend i fun p => (s.planes.get p).pixels).lane[j].busy = s.lanes.lane[j].busy ∧
      ∀ k, (s.lanes.endSend i fun p => (s.planes.get p).pixels).lane[j].holds k = s.lanes.lane[j].holds k := by
    rw [hlane]
    split
    · next e =>
      subst e
      have hb : s.lanes.lane[j].busy = true := Lane.busy_iff.2 (.inl hsending)
      refine ⟨rfl, hb.symm ▸ rfl, fun k => ?_⟩
      simp only [Lane.holds, Lane.rect?, hb]
      rfl
    · exact ⟨rfl, rfl, fun _ => rfl⟩
  constructor <;> simp only [State.setPlanes_lanes, State.setLanes_lanes, State.setPlanes_planes, State.setPlanes_planner, State.setLanes_planner, hp,
    State.setLanes_planes, hsame]
  case queue => exact h.queue
  case apart => exact h.apart
  case nodup => exact h.nodup.erase i
  case order =>
    intro j
    rw [hlane]
    show j ∈ s.lanes.order.erase i ↔ _
    rw [h.nodup.mem_erase_iff]
    split
    · next e => exact ⟨fun hm => absurd e hm.1, fun e => by cases e⟩
    · next e => exact ⟨fun hm => (h.order j).1 hm.2, fun hm => ⟨e, (h.order j).2 hm⟩⟩
  case tx => exact .inr ⟨trivial, rfl⟩
  case update =>
    intro j
    rw [hlane]
    split
    · next e =>
      subst e
      exact fun _ => h.update j (by rw [hsending]; decide)
    · exact h.update j
  case showing_nodup => exact h.showing_nodup
  case showing => exact h.showing
  case rx => exact h.rx

theorem LaneLaws.feed (h : LaneLaws true s) : LaneLaws false (s.setLanes s.lanes.feed) := by
  obtain ⟨h1, h2, h3, h4, h5, h6, h7, h8, h9⟩ := h
  refine ⟨h1, ?_, ?_, ?_, .inl ?_, ?_, h7, ?_, ?_⟩ <;>
    simp only [State.setLanes_lanes, LaneController.feed_lane, LaneController.feed_order, LaneController.feed_rx, LaneController.feed_tx] <;>
    try assumption
  split
  · rfl
  · next htx => exact h5.resolve_right fun e => htx e.2

/-! ### What leaves the showing lanes as they are -/

@[simp] theorem Planes.setPage_showing (p : Planes) (i : PlaneId) (page : Page) : (p.setPage i page).showing = p.showing := Planes.set_showing ..
@[simp] theorem Planes.setPart_showing (p : Planes) (i : PlaneId) (x : Part) : (p.setPart i x).showing = p.showing := Planes.set_showing ..
@[simp] theorem Planes.setPixels_showing (p : Planes) (i : PlaneId) (x : Pixels) : (p.setPixels i x).showing = p.showing := Planes.set_showing ..
@[simp] theorem Planes.free_showing (p : Planes) (i : PlaneId) : (p.free i).showing = p.showing := Planes.set_showing ..
@[simp] theorem Planes.openOn_showing (p : Planes) (i : PlaneId) (page : Page) : (p.openOn i page).showing = p.showing := Planes.set_showing ..

@[simp] theorem Planes.freePart_showing (p : Planes) (x : Part) : (p.freePart x).showing = p.showing := by
  unfold Planes.freePart
  split
  · rfl
  · exact Planes.free_showing ..

@[simp] theorem Planes.dropComposing_showing (p : Planes) : p.dropComposing.showing = p.showing := by
  unfold Planes.dropComposing
  split
  · rfl
  · exact Planes.free_showing ..

theorem mapComposingPage_showing (s : State) (f : Page → Page) : (s.mapComposingPage f).planes.showing = s.planes.showing := by
  unfold State.mapComposingPage
  split
  · rfl
  · exact Planes.setPage_showing ..

theorem pageFull_showing (s : State) : s.pageFull.planes.showing = s.planes.showing := by
  unfold State.pageFull
  split
  · rfl
  · exact (Planes.setPart_showing ..).trans (Planes.setPage_showing ..)

theorem commit_showing (s : State) (l : EndingLine) : (s.commit l).state.planes.showing = s.planes.showing :=
  commit_keeps (P := fun u => u.planes.showing = s.planes.showing) (fun u hu => (pageFull_showing u).trans hu)
    (fun _ _ _ _ _ _ hu => ((Planes.setPixels_showing ..).trans (Planes.setPage_showing ..)).trans hu) l rfl

theorem closePage_showing (s : State) : s.closePage.planes.showing = s.planes.showing := by
  unfold State.closePage
  split
  · rfl
  · exact (Planes.setPart_showing ..).trans (Planes.setPage_showing ..)

theorem grant_showing (s : State) : s.grant.planes.showing = s.planes.showing := by
  unfold State.grant
  split
  · rfl
  · split
    · exact Planes.openOn_showing ..
    · exact Planes.openOn_showing ..
    · rfl

theorem redraw_showing (s : State) (lines : List Nat) : (s.redraw lines).planes.showing = s.planes.showing := by
  unfold State.redraw
  split
  · rfl
  · exact Planes.setPixels_showing ..

/-! ### The moves -/

theorem LaneLaws.compose (h : LaneLaws free s) (hf : ComposeFrame s t) (hw : t.planes.showing = s.planes.showing) : LaneLaws free t := by
  obtain ⟨c, p, e, rfl⟩ := hf
  exact h.congr rfl hw h.queue

theorem LaneLaws.commit (h : LaneLaws free s) (l : EndingLine) : LaneLaws free (s.commit l).state :=
  h.compose (commit_frame s l) (commit_showing s l)

theorem LaneLaws.join (h : LaneLaws free s) (e : Entry) : LaneLaws free (s.join e) :=
  h.compose (join_frame s e) (mapComposingPage_showing ..)

theorem LaneLaws.drawHeld (h : LaneLaws free s) (x : HeldPaint) : LaneLaws free (s.drawHeld x) := by
  have hd : LaneLaws free (s.redraw x.lines) := by
    obtain ⟨p, hp⟩ := redraw_frame s x.lines
    exact h.congr (by rw [hp]; rfl) (redraw_showing s x.lines) (by rw [hp]; exact h.queue)
  unfold State.drawHeld State.holdTiles
  dsimp only
  split
  · exact LaneLaws.queueHold (hd.congr rfl rfl hd.queue)
  · exact hd.congr rfl rfl hd.queue

theorem LaneLaws.showReady (h : LaneLaws free s) (i : PlaneId) : LaneLaws free (s.showReady i) := by
  obtain ⟨-, h2, h3, h4, h5, h6, -, -, h9⟩ := h
  have hflip : LaneLaws free (s.setPlanes (flipPlanes s.planes s.lanes i)).flipRequest :=
    ⟨enqueue_length_le [] _ (Nat.zero_le _), h2, h3, h4, h5, h6, List.nodup_nil, (fun j hj => by cases hj), h9⟩
  unfold State.showReady State.supersede
  split
  · exact hflip
  · exact hflip.congr rfl rfl hflip.queue

theorem LaneLaws.move {o : Origin} (m : Move o s t) (h : LaneLaws free s) : LaneLaws free t := by
  have hcommit (u : State) (l : EndingLine) (hu : LaneLaws free u) : LaneLaws free (u.commit l).state := hu.commit l
  have same {u : State} (hl : u.lanes = s.lanes) (hw : u.planes.showing = s.planes.showing) (hq : u.planner = s.planner) : LaneLaws free u :=
    h.congr hl hw (hq ▸ h.queue)
  cases m with
  | dispatch _ _ hd => exact h.dispatch hd
  | finish i hw =>
    refine h.endWait hw ⟨by decide, by decide⟩ (w := if s.planes.showing.contains i then [] else s.planes.showing) ?_ ?_ (by split <;> rfl)
    · split
      · exact List.nodup_nil
      · exact h.showing_nodup
    · intro j hj
      split at hj
      · cases hj
      · next hi => exact ⟨hj, fun e => hi (by simpa using e ▸ hj)⟩
  | timeout i hw =>
    exact h.endWait hw ⟨by decide, by decide⟩ (h.showing_nodup.erase i)
      (fun j hj => ⟨List.mem_of_mem_erase hj, (h.showing_nodup.mem_erase_iff.1 hj).1⟩) rfl
  | abort => exact h.abort (Planes.freePart_showing ..)
  | count => exact h.count
  | receive x hx => exact { h with rx := hx h.rx }
  | duration m d => cases m <;> exact { h with }
  | request source mode q => exact h.enqueue source mode q
  | queueHold => exact h.queueHold
  | clearQueue => exact h.congr rfl rfl (Nat.zero_le _)
  | drawHeld x => exact h.drawHeld x
  | drawTested x => exact LaneLaws.drawHeld (s := s.setCmd { s.cmd with executing := none }) (same rfl rfl rfl) x
  | showReady i => exact h.showReady i
  | appendNew code cls => exact afterAppend_keeps hcommit cls (h.join _)
  | reappend e rest => exact afterAppend_keeps hcommit e.cls (LaneLaws.join (s := s.setComp { s.comp with carry := rest }) (same rfl rfl rfl) e)
  | pageFull => exact h.compose (pageFull_frame s) (pageFull_showing s)
  | breakTest => exact breakTest_keeps hcommit h
  | endParagraph => exact endParagraph_keeps hcommit (fun u hu => hu.congr rfl rfl hu.queue) h
  | closePage =>
    refine h.congr ?_ (closePage_showing s) ?_ <;> unfold State.closePage <;> split
    · rfl
    · rfl
    · exact h.queue
    · exact h.queue
  | grant =>
    obtain ⟨r, c, p, hg⟩ := grant_frame s
    exact same (by rw [hg]; rfl) (grant_showing s) (by rw [hg]; rfl)
  | openPage i number frame => exact same rfl (Planes.openOn_showing ..) rfl
  | freeReady i => exact same rfl (Planes.free_showing ..) rfl
  | streamReset => exact same rfl (Planes.dropComposing_showing ..) rfl
  | openNote | paintNote | eraseNote => exact same rfl (Planes.setPage_showing ..) rfl
  | closeNote id =>
    have hw := mapComposingPage_showing s fun page => { page with notes := Machine.closeNote s.comp.nextOrdinal id page.notes }
    obtain ⟨p, hp⟩ := mapComposingPage_eq s fun page => { page with notes := Machine.closeNote s.comp.nextOrdinal id page.notes }
    rw [hp] at hw ⊢
    exact same rfl hw rfl
  | beginTable | faultTable | defineGlyph | endTable | dropTable =>
    rw [setTable_eq]
    exact same rfl rfl rfl
  | _ => exact h.congr rfl rfl h.queue

theorem LaneLaws.reset : LaneLaws false State.reset := by
  have hlane (i : Fin 4) : State.reset.lanes.lane[i] = Lane.reset := Vector.getElem_replicate ..
  refine ⟨Nat.zero_le _, fun i j k _ _ => ?_, List.nodup_nil, fun i => ⟨fun hm => (by cases hm), fun e => ?_⟩, .inl rfl, fun i hi => ?_,
    List.nodup_nil, (fun i hi => by cases hi), fun got hg => by cases hg⟩
  · rw [hlane]
    rfl
  · rw [hlane] at e
    cases e
  · rw [hlane] at hi
    exact absurd rfl hi

end Sys2Proof.Machine
end

section

open Sys2Proof Sys2Proof.Machine

/-- Settles O58: a dispatch takes an IDLE lane to a rectangle that no busy lane blocks, a lane that ends its wait leaves the showing lanes, and a send's end, which
leaves the transmitter free, feeds it again. -/
theorem stepKeepsLaneSafe : Obligations.StepKeepsLaneSafe := by
  intro s t hs hstep
  rw [laneSafe_iff] at hs ⊢
  refine step_keeps_through (Q := LaneLaws true) (fun _ _ _ => LaneLaws.move) (fun _ _ _ => LaneLaws.move) (fun u x h => ?_) (fun u v _ hr => ?_)
    (fun u i h htx => h.sendEnded htx) (fun u h => h.feed) hs hstep
  · exact h.congr rfl rfl h.queue
  · cases hr
    exact LaneLaws.reset.congr rfl rfl (Nat.zero_le _)

end

section
/-! PROOFS. Chapter 6: the laws of the two planes. -/

namespace Sys2Proof.Machine

open Sys2Proof

variable {s t : State}

/-! ### The parts that planes play -/

/-- The part that a plane plays. -/
abbrev Planes.part (p : Planes) (i : PlaneId) : Option Part := (p.get i).part

theorem Planes.get_set_eq (p : Planes) (i j : PlaneId) (x : Plane) : (p.set i x).get j = if j = i then x else p.get j := by
  cases i <;> cases j <;> rfl

theorem Planes.part_set (p : Planes) (i j : PlaneId) (x : Plane) : (p.set i x).part j = if j = i then x.part else p.part j := by
  rw [Planes.part, Planes.get_set_eq]
  split <;> rfl

theorem Planes.part_setPage (p : Planes) (i j : PlaneId) (page : Page) : (p.setPage i page).part j = p.part j := by
  rw [Planes.setPage, Planes.part_set]
  split
  · next e =>
    subst e
    simp only [Plane.part, Option.map_map]
    rfl
  · rfl

theorem Planes.part_setPixels (p : Planes) (i j : PlaneId) (x : Pixels) : (p.setPixels i x).part j = p.part j := by
  rw [Planes.setPixels, Planes.part_set]
  split
  · next e =>
    subst e
    rfl
  · rfl

theorem Planes.part_setPart (p : Planes) (i j : PlaneId) (x : Part) :
    (p.setPart i x).part j = if j = i then (p.part i).map fun _ => x else p.part j := by
  rw [Planes.setPart, Planes.part_set]
  simp only [Planes.part, Plane.part, Option.map_map]
  rfl

theorem Planes.part_free (p : Planes) (i j : PlaneId) : (p.free i).part j = if j = i then none else p.part j := Planes.part_set ..

theorem Planes.part_openOn (p : Planes) (i j : PlaneId) (page : Page) :
    (p.openOn i page).part j = if j = i then some .composing else p.part j := Planes.part_set ..

theorem Planes.find_isSome {p : Planes} {x : Part} : (p.find x).isSome = true ↔ ∃ i, p.part i = some x := by
  rw [← not_iff_not, Bool.not_eq_true, Option.isSome_eq_false_iff, Option.isNone_iff_eq_none, Planes.find_eq_none, not_exists]

/-- The pair of parts, seen from a plane. -/
abbrev Planes.Pair (p : Planes) (i : PlaneId) : Prop := PlanePair (p.part i) (p.part i.other)

theorem planePair_comm {x y : Option Part} (h : PlanePair x y) : PlanePair y x := by
  rcases x with - | x <;> rcases y with - | y
  · trivial
  · exact h
  · exact h
  · cases x <;> cases y <;> simp_all [PlanePair]

theorem Planes.pair_iff {p : Planes} (i : PlaneId) : PlanePair p.a.part p.b.part ↔ p.Pair i := by
  cases i with
  | a => exact Iff.rfl
  | b => exact ⟨planePair_comm, planePair_comm⟩

/-- R96: no two planes play one part. -/
theorem planePair_self (x : Part) : ¬ PlanePair (some x) (some x) := by cases x <;> simp [PlanePair]

theorem Planes.find_eq_some {p : Planes} (hp : PlanePair p.a.part p.b.part) {x : Part} {i : PlaneId} : p.find x = some i ↔ p.part i = some x := by
  refine ⟨Planes.part_of_find p i, fun h => ?_⟩
  have hpair : p.Pair i := (Planes.pair_iff i).1 hp
  cases i with
  | a => exact if_pos h
  | b =>
    have ha : p.a.part ≠ some x := fun ha => planePair_self x (by rw [ha] at hp; rw [show p.b.part = some x from h] at hp; exact hp)
    exact (if_neg ha).trans (if_pos h)

/-! ### The changes of part that the rules make -/

section
variable {y : Option Part}

theorem planePair_close (h : PlanePair (some .composing) y) : PlanePair (some .ready) y := by
  rcases y with - | y
  · exact fun e => by cases e
  · cases y <;> simp_all [PlanePair]

theorem planePair_open (h : PlanePair none y) (hc : y ≠ some .composing) (hr : y ≠ some .ready) : PlanePair (some .composing) y := by
  rcases y with - | y
  · exact fun e => by cases e
  · cases y <;> simp_all [PlanePair]

theorem planePair_free {x : Part} (hx : x ≠ .shown) (h : PlanePair (some x) y) : PlanePair none y := by
  rcases y with - | y
  · trivial
  · cases x <;> cases y <;> simp_all [PlanePair]

/-- R96: beside a plane that the stream builds or has built there is at most the SHOWN one. -/
theorem planePair_building {x : Part} (hx : x = .composing ∨ x = .ready) (h : PlanePair (some x) y) : y = none ∨ y = some .shown := by
  rcases y with - | y
  · exact .inl rfl
  · rcases hx with rfl | rfl <;> cases y <;> simp_all [PlanePair]

theorem planePair_retiring (h : PlanePair (some .retiring) y) : y = some .shown := by
  rcases y with - | y
  · exact absurd rfl h
  · cases y <;> simp_all [PlanePair]

end

/-! ### Sending lanes -/

theorem sendsFrom_iff {l : LaneController} {i : PlaneId} : l.sendsFrom i = true ↔ ∃ j : Fin 4, l.lane[j].sendsFrom i = true := by
  unfold LaneController.sendsFrom
  rw [List.any_eq_true]
  constructor
  · rintro ⟨x, hx, h⟩
    obtain ⟨k, hk, rfl⟩ := List.mem_iff_getElem.1 hx
    exact ⟨⟨k, by simpa using hk⟩, by simpa using h⟩
  · rintro ⟨j, h⟩
    exact ⟨_, by simp, h⟩

/-- The lane sends from the plane, with a rectangle that has one of the tiles. -/
def Lane.conflicts (x : Lane) (i : PlaneId) (tiles : List Nat) : Bool :=
  x.sendsFrom i && (match x.update with
    | some u => tiles.any u.rect.has
    | none => false)

theorem sendConflict_iff {l : LaneController} {i : PlaneId} {tiles : List Nat} :
    sendConflict l i tiles = true ↔ ∃ j : Fin 4, l.lane[j].conflicts i tiles = true := by
  show (l.lane.toList.any fun x => x.conflicts i tiles) = true ↔ _
  rw [List.any_eq_true]
  constructor
  · rintro ⟨x, hx, h⟩
    obtain ⟨k, hk, rfl⟩ := List.mem_iff_getElem.1 hx
    exact ⟨⟨k, by simpa using hk⟩, by simpa using h⟩
  · rintro ⟨j, h⟩
    exact ⟨_, by simp, h⟩

theorem not_sendsFrom_of_state {x : Lane} (h : x.state ≠ .sending) (i : PlaneId) : x.sendsFrom i = false := by
  simp [Lane.sendsFrom, h]

theorem not_conflicts_of_state {x : Lane} (h : x.state ≠ .sending) (i : PlaneId) (tiles : List Nat) : x.conflicts i tiles = false := by
  simp [Lane.conflicts, not_sendsFrom_of_state h]

/-! ### The laws -/

/-- The laws of PlaneSafe by name, in terms of the parts that planes play. Without `tested`, a re-render may be held although no lane sends its tiles any more, as
within a send's end. -/
structure PlaneLaws (tested : Bool) (s : State) : Prop where
  pair : PlanePair s.planes.a.part s.planes.b.part
  composing : s.comp.state = .composing ↔ ∃ i, s.planes.part i = some .composing
  showing : s.planes.showing ≠ [] → s.planes.showPending = true
  queue : s.planner.queue ≠ [] → ∃ i, s.planes.part i = some .shown
  tiles : s.notes.tiles ≠ [] → ∃ i, s.planes.part i = some .shown
  sends : ∀ i, s.lanes.sendsFrom i = true → s.planes.part i = some .shown ∨ s.planes.part i = some .retiring
  retiring : ∀ i, s.planes.part i = some .retiring → s.lanes.sendsFrom i = true
  held : tested = true → ∀ h, s.cmd.executing = some h → ∃ i, s.planes.part i = some .shown ∧ sendConflict s.lanes i h.tiles = true

theorem planeSafe_iff : PlaneSafe s ↔ PlaneLaws true s := by
  have hsends : (∀ x ∈ s.lanes.lane.toList, ∀ i, x.sendsFrom i = true → s.planes.part i = some .shown ∨ s.planes.part i = some .retiring) ↔
      ∀ i, s.lanes.sendsFrom i = true → s.planes.part i = some .shown ∨ s.planes.part i = some .retiring := by
    simp only [LaneController.sendsFrom, List.any_eq_true]
    exact ⟨fun h i ⟨x, hx, hi⟩ => h x hx i hi, fun h x hx i hi => h i ⟨x, hx, hi⟩⟩
  constructor
  · rintro ⟨h1, h2, h3, h4, h5, h6, h7, h8⟩
    simp only [Shown, Planes.find_isSome, Planes.find_eq_some h1] at *
    exact ⟨h1, h2, h3, h4, h5, hsends.1 h6, h7, fun _ => h8⟩
  · rintro ⟨h1, h2, h3, h4, h5, h6, h7, h8⟩
    simp only [PlaneSafe, Shown, Planes.find_isSome, Planes.find_eq_some h1]
    exact ⟨h1, h2, h3, h4, h5, hsends.2 h6, h7, h8 rfl⟩

theorem PlaneLaws.untested {b : Bool} (h : PlaneLaws b s) : PlaneLaws false s := { h with held := fun e => by cases e }

variable {b : Bool}

/-- The Composer's COMPOSING, and the lanes' conflicts, are all that a state with the same parts may change. -/
theorem PlaneLaws.sameParts (h : PlaneLaws b s) (hp : ∀ i, t.planes.part i = s.planes.part i)
    (hc : t.comp.state = .composing ↔ s.comp.state = .composing) (hw : t.planes.showing ≠ [] → t.planes.showPending = true)
    (hq : t.planner.queue ≠ [] → ∃ i, s.planes.part i = some .shown) (ht : t.notes.tiles ≠ [] → ∃ i, s.planes.part i = some .shown)
    (hs : ∀ i, t.lanes.sendsFrom i = s.lanes.sendsFrom i)
    (he : b = true → ∀ x, t.cmd.executing = some x → ∃ i, s.planes.part i = some .shown ∧ sendConflict t.lanes i x.tiles = true) :
    PlaneLaws b t := by
  have hpair : PlanePair (t.planes.part .a) (t.planes.part .b) := by
    rw [hp, hp]
    exact h.pair
  refine ⟨hpair, ?_, hw, ?_, ?_, ?_, ?_, ?_⟩ <;> simp only [hp, hc, hs]
  · exact h.composing
  · exact hq
  · exact ht
  · exact h.sends
  · exact h.retiring
  · exact he

/-- What the laws do not speak of may change. -/
theorem PlaneLaws.congr (h : PlaneLaws b s) (hp : t.planes = s.planes) (hc : t.comp.state = s.comp.state) (hq : t.planner.queue = s.planner.queue)
    (ht : t.notes.tiles = s.notes.tiles) (hl : t.lanes = s.lanes) (he : t.cmd.executing = s.cmd.executing) : PlaneLaws b t :=
  h.sameParts (fun i => by rw [hp]) (by rw [hc]) (hp ▸ h.showing) (hq ▸ h.queue) (ht ▸ h.tiles) (fun i => by rw [hl]) (by rw [hl, he]; exact h.held)

/-- The planes alone change, in what they hold and not in their parts. -/
theorem PlaneLaws.setPlanes (h : PlaneLaws b s) {p : Planes} (hp : ∀ i, p.part i = s.planes.part i) (hw : p.showing ≠ [] → p.showPending = true) :
    PlaneLaws b (s.setPlanes p) :=
  h.sameParts hp Iff.rfl hw h.queue h.tiles (fun _ => rfl) h.held

theorem PlaneLaws.pairAt (h : PlaneLaws b s) (i : PlaneId) : s.planes.Pair i := (Planes.pair_iff i).1 h.pair

theorem PlaneLaws.not_sends (h : PlaneLaws b s) {i : PlaneId} (h1 : s.planes.part i ≠ some .shown) (h2 : s.planes.part i ≠ some .retiring) :
    s.lanes.sendsFrom i = false := by
  by_contra hi
  exact (h.sends i (by simpa using hi)).elim h1 h2

/-- One plane changes its part, to one in which no lane sends from it, beside a plane that is not COMPOSING. -/
theorem PlaneLaws.become (h : PlaneLaws b s) {i : PlaneId} {y : Option Part} (hp : ∀ j, t.planes.part j = if j = i then y else s.planes.part j)
    (hpair : PlanePair y (s.planes.part i.other)) (hother : s.planes.part i.other ≠ some .composing)
    (hc : t.comp.state = .composing ↔ y = some .composing) (hw : t.planes.showing ≠ [] → t.planes.showPending = true)
    (hq : t.planner.queue = s.planner.queue) (ht : t.notes.tiles = s.notes.tiles) (hl : t.lanes = s.lanes)
    (he : t.cmd.executing = s.cmd.executing) (hi : s.planes.part i ≠ some .shown) (hs : s.lanes.sendsFrom i = false)
    (hy : y ≠ some .shown ∧ y ≠ some .retiring) : PlaneLaws b t := by
  have hshown (j : PlaneId) (hj : s.planes.part j = some .shown) : t.planes.part j = some .shown := by
    have hji : j ≠ i := fun e => hi (e ▸ hj)
    rw [hp, if_neg hji]
    exact hj
  refine ⟨(Planes.pair_iff i).2 ?_, ?_, hw, ?_, ?_, fun j hj => ?_, fun j hj => ?_, fun hb x hx => ?_⟩
  · show PlanePair (t.planes.part i) (t.planes.part i.other)
    rw [hp, hp, if_pos rfl, if_neg (PlaneId.other_ne i)]
    exact hpair
  · rw [hc]
    constructor
    · intro e
      exact ⟨i, by rw [hp, if_pos rfl, e]⟩
    · rintro ⟨j, hj⟩
      rw [hp] at hj
      split at hj
      · exact hj
      · next hji => exact absurd ((PlaneId.eq_or_other i j).resolve_left hji ▸ hj) hother
  · rw [hq]
    exact fun hne => (h.queue hne).imp hshown
  · rw [ht]
    exact fun hne => (h.tiles hne).imp hshown
  · rw [hl] at hj
    have hji : j ≠ i := fun e => by
      rw [e, hs] at hj
      cases hj
    rw [hp, if_neg hji]
    exact h.sends j hj
  · rw [hp] at hj
    rw [hl]
    split at hj
    · exact absurd hj hy.2
    · exact h.retiring j hj
  · rw [he] at hx
    rw [hl]
    obtain ⟨j, hj, hconf⟩ := h.held hb x hx
    exact ⟨j, hshown j hj, hconf⟩

/-- The plane beside one that the stream builds or has built is FREE or SHOWN. -/
theorem PlaneLaws.beside (h : PlaneLaws b s) {i : PlaneId} {x : Part} (hx : x = .composing ∨ x = .ready) (hi : s.planes.part i = some x) :
    s.planes.part i.other = none ∨ s.planes.part i.other = some .shown := by
  have := h.pairAt i
  rw [Planes.Pair, hi] at this
  exact planePair_building hx this

end Sys2Proof.Machine
end

section
/-! PROOFS. Chapter 6: every move keeps the laws of the two planes. -/

namespace Sys2Proof.Machine

open Sys2Proof

variable {s t : State} {b : Bool}

/-! ### Pages and their parts -/

theorem part_of_pageOf {p : Planes} {x : Part} {i : PlaneId} {page : Page} (h : p.pageOf x = some (i, page)) : p.part i = some x :=
  Planes.part_of_find p i (Planes.pageOf_eq_some _ _ h).1

theorem pageOf_isSome {p : Planes} {x : Part} : (p.pageOf x).isSome = true ↔ ∃ i, p.part i = some x :=
  pageFind_isSome.trans Planes.find_isSome

theorem mapComposingPage_part (s : State) (f : Page → Page) (i : PlaneId) : (s.mapComposingPage f).planes.part i = s.planes.part i := by
  unfold State.mapComposingPage
  split
  · rfl
  · exact Planes.part_setPage ..

theorem redraw_part (s : State) (lines : List Nat) (i : PlaneId) : (s.redraw lines).planes.part i = s.planes.part i := by
  unfold State.redraw
  split
  · rfl
  · exact Planes.part_setPixels ..

/-- A page or pixels replaced leave the show report alone. -/
theorem PlaneLaws.set_report (h : PlaneLaws b s) (i : PlaneId) (x : Plane) :
    (s.planes.set i x).showing ≠ [] → (s.planes.set i x).showPending = true := by
  rw [Planes.set_showing, Planes.set_showPending]
  exact h.showing

theorem PlaneLaws.setPage (h : PlaneLaws b s) (i : PlaneId) (page : Page) : PlaneLaws b (s.setPlanes (s.planes.setPage i page)) :=
  h.setPlanes (fun _ => Planes.part_setPage ..) (h.set_report i _)

/-! ### Commits -/

theorem PlaneLaws.not_composing (h : PlaneLaws b s) {i : PlaneId} {x : Part} (hi : s.planes.part i = some x) (hx : x ≠ .composing)
    (hother : s.planes.part i.other ≠ some .composing) : s.comp.state ≠ .composing := by
  rw [Ne, h.composing]
  rintro ⟨j, hj⟩
  rcases PlaneId.eq_or_other i j with rfl | rfl
  · rw [hi] at hj
    cases hj
    exact hx rfl
  · exact hother hj

theorem PlaneLaws.beside_not_composing (h : PlaneLaws b s) {i : PlaneId} {x : Part} (hx : x = .composing ∨ x = .ready)
    (hi : s.planes.part i = some x) : s.planes.part i.other ≠ some .composing := by
  rcases h.beside hx hi with e | e <;> rw [e] <;> decide

/-- R103 and R104: the composing page becomes READY, and the Composer is COMPOSING no more. -/
theorem PlaneLaws.ready (h : PlaneLaws b s) {i : PlaneId} {page page' : Page} (hp : s.composingPage = some (i, page))
    (hplanes : t.planes = (s.planes.setPage i page').setPart i .ready) (hc : t.comp.state ≠ .composing)
    (hq : t.planner = s.planner) (ht : t.notes.tiles = s.notes.tiles) (hl : t.lanes = s.lanes) (he : t.cmd = s.cmd) : PlaneLaws b t := by
  have hi : s.planes.part i = some .composing := part_of_pageOf hp
  have hpair := h.pairAt i
  rw [Planes.Pair, hi] at hpair
  refine h.become (i := i) (y := some .ready) (fun j => ?_) (planePair_close hpair) (h.beside_not_composing (.inl rfl) hi)
    ⟨fun e => absurd e hc, fun e => by cases e⟩ ?_ (by rw [hq]) ht hl (by rw [he]) (by rw [hi]; decide)
    (h.not_sends (by rw [hi]; decide) (by rw [hi]; decide)) ⟨by decide, by decide⟩
  · rw [hplanes, Planes.part_setPart, Planes.part_setPage, Planes.part_setPage, hi]
    rfl
  · rw [hplanes, Planes.setPart_showing, Planes.setPage_showing, Planes.setPart, Planes.set_showPending, Planes.setPage, Planes.set_showPending]
    exact h.showing

theorem PlaneLaws.pageFull (h : PlaneLaws b s) : PlaneLaws b s.pageFull := by
  unfold State.pageFull
  split
  · exact h
  · next i page hp => exact h.ready hp rfl (fun e => by cases e) rfl rfl rfl rfl

theorem PlaneLaws.closePage (h : PlaneLaws b s) : PlaneLaws b s.closePage := by
  unfold State.closePage
  split
  · exact h
  · next i page hp => exact h.ready hp rfl (fun e => by cases e) rfl rfl rfl rfl

theorem PlaneLaws.commit (h : PlaneLaws b s) (l : EndingLine) : PlaneLaws b (s.commit l).state := by
  refine commit_keeps (fun _ hu => hu.pageFull) (fun u i page n o hp hu => ?_) l h
  exact hu.sameParts (fun j => (Planes.part_setPixels ..).trans (Planes.part_setPage ..)) Iff.rfl
    (by
      show ((u.planes.setPage i _).setPixels i _).showing ≠ [] → ((u.planes.setPage i _).setPixels i _).showPending = true
      rw [Planes.setPixels_showing, Planes.setPage_showing, Planes.setPixels, Planes.set_showPending, Planes.setPage, Planes.set_showPending]
      exact hu.showing)
    hu.queue hu.tiles (fun _ => rfl) hu.held

theorem PlaneLaws.mapComposingPage (h : PlaneLaws b s) (f : Page → Page) : PlaneLaws b (s.mapComposingPage f) := by
  unfold State.mapComposingPage
  split
  · exact h
  · exact h.setPlanes (fun _ => Planes.part_setPage ..) (h.set_report _ _)

theorem PlaneLaws.setComp (h : PlaneLaws b s) {c : Composer} (hc : c.state = s.comp.state) : PlaneLaws b (s.setComp c) :=
  h.congr rfl hc rfl rfl rfl rfl

theorem withPara_state (c : Composer) : c.withPara.state = c.state := by
  unfold Composer.withPara
  split <;> rfl

theorem PlaneLaws.join (h : PlaneLaws b s) (e : Entry) : PlaneLaws b (s.join e) := by
  unfold State.join
  exact PlaneLaws.mapComposingPage (h.setComp (c := { s.comp.withPara with
    buffer := s.comp.withPara.buffer ++ [{ e with ordinal := s.comp.withPara.nextOrdinal, kern := s.kernFor e }]
    nextOrdinal := s.comp.withPara.nextOrdinal + 1 }) (withPara_state s.comp)) _

/-! ### Opening a page -/

theorem Planes.available_eq_some {p : Planes} {i : PlaneId} (h : p.available = some i) : p.availableAt i = true := by
  unfold Planes.available at h
  split at h
  · cases h
    assumption
  · split at h
    · cases h
      assumption
    · cases h

/-- R98 and R100: a page opens on an available plane. -/
theorem PlaneLaws.openOn (h : PlaneLaws b s) {i : PlaneId} {page : Page} (hi : s.planes.available = some i)
    (hplanes : t.planes = s.planes.openOn i page) (hc : t.comp.state = .composing)
    (hq : t.planner = s.planner) (ht : t.notes = s.notes) (hl : t.lanes = s.lanes) (he : t.cmd = s.cmd) : PlaneLaws b t := by
  obtain ⟨hfree, hnc, hnr⟩ := (Planes.availableAt_iff ..).1 (Planes.available_eq_some hi)
  have hfree : s.planes.part i = none := hfree
  have hpair := h.pairAt i
  rw [Planes.Pair, hfree] at hpair
  refine h.become (i := i) (y := some .composing) (fun j => ?_) (planePair_open hpair hnc hnr) hnc ⟨fun _ => rfl, fun _ => hc⟩ ?_ (by rw [hq])
    (by rw [ht]) hl (by rw [he]) (by rw [hfree]; decide)
    (h.not_sends (by rw [hfree]; decide) (by rw [hfree]; decide)) ⟨by decide, by decide⟩
  · rw [hplanes, Planes.part_openOn]
  · rw [hplanes]
    exact h.set_report _ _

theorem PlaneLaws.grant (h : PlaneLaws b s) : PlaneLaws b s.grant := by
  unfold State.grant
  split
  · exact h
  · split
    · next hi => exact h.openOn hi rfl rfl rfl rfl rfl rfl
    · next hi => exact h.openOn hi rfl rfl rfl rfl rfl rfl
    · exact h

/-- R101: the Composer that waits was building no page. -/
theorem PlaneLaws.awaitPlane (h : PlaneLaws b s) {p : PendingPage} (hn : s.comp.state = .composing → s.composingPage = none) :
    PlaneLaws b (s.setComp { s.comp with state := .waitPlane p }) := by
  refine h.sameParts (fun _ => rfl) ⟨fun e => (by cases e), fun e => ?_⟩ h.showing h.queue h.tiles (fun _ => rfl) h.held
  have hpage := pageOf_isSome.2 (h.composing.1 e)
  have := hn e
  rw [State.composingPage] at this
  rw [this] at hpage
  cases hpage

/-! ### Freeing a plane -/

theorem PlaneLaws.free (h : PlaneLaws b s) {i : PlaneId} {x : Part} (hi : s.planes.part i = some x) (hx : x = .composing ∨ x = .ready)
    (hplanes : t.planes = s.planes.free i) (hc : t.comp.state ≠ .composing)
    (hq : t.planner = s.planner) (ht : t.notes.tiles = s.notes.tiles) (hl : t.lanes = s.lanes) (he : t.cmd = s.cmd) : PlaneLaws b t := by
  have hns : x ≠ .shown := by rcases hx with rfl | rfl <;> decide
  have hnr : x ≠ .retiring := by rcases hx with rfl | rfl <;> decide
  have hpair := h.pairAt i
  rw [Planes.Pair, hi] at hpair
  have h1 : s.planes.part i ≠ some .shown := by rw [hi]; exact fun e => hns (Option.some.inj e)
  have h2 : s.planes.part i ≠ some .retiring := by rw [hi]; exact fun e => hnr (Option.some.inj e)
  refine h.become (i := i) (y := none) (fun j => ?_) (planePair_free hns hpair) (h.beside_not_composing hx hi)
    ⟨fun e => absurd e hc, fun e => by cases e⟩ ?_ (by rw [hq]) ht hl (by rw [he]) h1 (h.not_sends h1 h2) ⟨by decide, by decide⟩
  · rw [hplanes, Planes.part_free]
  · rw [hplanes]
    exact h.set_report _ _

theorem PlaneLaws.freeReady (h : PlaneLaws b s) {i : PlaneId} (hi : s.planes.find .ready = some i) : PlaneLaws b (s.setPlanes (s.planes.free i)) := by
  have hi := (Planes.find_eq_some h.pair).1 hi
  exact h.free hi (.inr rfl) rfl (h.not_composing hi (by decide) (h.beside_not_composing (.inr rfl) hi)) rfl rfl rfl rfl

/-- R114: no page is composed any more. -/
theorem PlaneLaws.streamReset (h : PlaneLaws b s) (hplanes : t.planes = s.planes.dropComposing) (hc : t.comp.state = .idle)
    (hq : t.planner = s.planner) (ht : t.notes.tiles = s.notes.tiles) (hl : t.lanes = s.lanes) (he : t.cmd = s.cmd) : PlaneLaws b t := by
  have hne : t.comp.state ≠ .composing := by rw [hc]; decide
  unfold Planes.dropComposing at hplanes
  split at hplanes
  · next hf =>
    refine h.sameParts (fun i => by rw [hplanes]) ⟨fun e => absurd e hne, fun e => ?_⟩ (hplanes ▸ h.showing) (hq ▸ h.queue) (ht ▸ h.tiles)
      (fun i => by rw [hl]) (by rw [hl, he]; exact h.held)
    have := Planes.find_isSome.2 (h.composing.1 e)
    rw [hf] at this
    cases this
  · next i hi => exact h.free ((Planes.find_eq_some h.pair).1 hi) (.inl rfl) hplanes hne hq ht hl he

/-! ### Requests and the hold set -/

theorem PlaneLaws.enqueue (h : PlaneLaws b s) (hp : ∃ i, s.planes.part i = some .shown) (source : Source) (mode : Mode) (q : Rect) :
    PlaneLaws b (s.enqueue source mode q) :=
  h.sameParts (fun _ => rfl) Iff.rfl h.showing (fun _ => hp) h.tiles (fun _ => rfl) h.held

theorem PlaneLaws.emptyHold (h : PlaneLaws b s) : PlaneLaws b (s.setNotes s.notes.emptyHold) :=
  h.sameParts (fun _ => rfl) Iff.rfl h.showing h.queue (fun hne => absurd rfl hne) (fun _ => rfl) h.held

theorem PlaneLaws.queueHold (h : PlaneLaws b s) : PlaneLaws b s.queueHold := by
  unfold State.queueHold
  split
  · exact h.emptyHold
  · next q hq =>
    refine h.emptyHold.enqueue (h.tiles fun e => ?_) ..
    rw [e] at hq
    cases hq

theorem PlaneLaws.drawHeld (h : PlaneLaws b s) (hp : s.frontPage.isSome = true) (x : HeldPaint) : PlaneLaws b (s.drawHeld x) := by
  have hshown := pageOf_isSome.1 hp
  have hd : PlaneLaws b (s.redraw x.lines) := by
    unfold State.redraw
    split
    · exact h
    · exact h.setPlanes (fun _ => Planes.part_setPixels ..) (h.set_report _ _)
  have hshown' : ∃ i, (s.redraw x.lines).planes.part i = some .shown := hshown.imp fun i hi => (redraw_part s x.lines i).trans hi
  have hheld : PlaneLaws b ((s.redraw x.lines).setNotes { (s.redraw x.lines).notes with
      tiles := x.tiles.foldr insertNat (s.redraw x.lines).notes.tiles, chain := (s.redraw x.lines).notes.chain + 1 }) :=
    hd.sameParts (fun _ => rfl) Iff.rfl hd.showing hd.queue (fun _ => hshown') (fun _ => rfl) hd.held
  unfold State.drawHeld State.holdTiles
  dsimp only
  split
  · exact hheld.queueHold
  · exact hheld

theorem PlaneLaws.unhold (h : PlaneLaws b s) : PlaneLaws true (s.setCmd { s.cmd with executing := none }) :=
  { h with held := fun _ x hx => by cases hx }

theorem PlaneLaws.weaken (h : PlaneLaws true s) : PlaneLaws b s := { h with held := fun _ => h.held rfl }

/-! ### The flip -/

/-- R106: the parts after a flip. -/
theorem part_flipPlanes (h : PlaneLaws b s) {i : PlaneId} (hi : s.planes.part i = some .ready) (j : PlaneId) :
    (flipPlanes s.planes s.lanes i).part j = if j = i then some .shown
      else if s.planes.part j = some .shown ∧ s.lanes.sendsFrom j = true then some .retiring else none := by
  have hne (k : PlaneId) (hk : s.planes.part k = some .shown) : k = i.other := by
    refine (PlaneId.eq_or_other i k).resolve_left fun e => ?_
    rw [e, hi] at hk
    cases hk
  have step (p : Planes) (hpi : p.part i = some .ready) :
      Planes.part { p.setPart i .shown with showPending := true, showing := [] } j = if j = i then some .shown else p.part j := by
    show (p.setPart i .shown).part j = _
    rw [Planes.part_setPart, hpi]
    rfl
  unfold flipPlanes
  dsimp only
  split
  · next hf =>
    rw [step _ hi]
    split
    · rfl
    · next hj =>
      have hns : ¬ s.planes.part j = some .shown := (Planes.find_eq_none s.planes).1 hf j
      rw [if_neg fun e => hns e.1]
      rw [(PlaneId.eq_or_other i j).resolve_left hj] at hns ⊢
      exact (h.beside (.inr rfl) hi).resolve_right hns
  · next old hf =>
    have hold := (Planes.find_eq_some h.pair).1 hf
    have hoi := hne old hold
    have hio : i ≠ old := fun e => PlaneId.other_ne i (hoi ▸ e.symm)
    split
    · next hsend =>
      rw [step _ (by rw [Planes.part_setPart, if_neg hio, hi]), Planes.part_setPart, hold]
      split
      · rfl
      · next hj =>
        have hj : j = old := hoi ▸ (PlaneId.eq_or_other i j).resolve_left hj
        rw [hj, if_pos rfl, if_pos ⟨hold, hsend⟩]
        rfl
    · next hsend =>
      rw [step _ (by rw [Planes.part_free, if_neg hio, hi]), Planes.part_free]
      split
      · rfl
      · next hj =>
        have hj : j = old := hoi ▸ (PlaneId.eq_or_other i j).resolve_left hj
        rw [hj, if_pos rfl, if_neg fun e => hsend e.2]

theorem PlaneLaws.showReady (h : PlaneLaws b s) {i : PlaneId} (hf : s.planes.find .ready = some i) : PlaneLaws b (s.showReady i) := by
  have hi := (Planes.find_eq_some h.pair).1 hf
  have hpart := part_flipPlanes h hi
  have hshown : ∃ j, (flipPlanes s.planes s.lanes i).part j = some .shown := ⟨i, by rw [hpart, if_pos rfl]⟩
  have hnc : ¬ s.comp.state = .composing := h.not_composing hi (by decide) (h.beside_not_composing (.inr rfl) hi)
  have laws {u : State} (hu : u.planes = flipPlanes s.planes s.lanes i) (hc : u.comp = s.comp) (hl : u.lanes = s.lanes) (ht : u.notes.tiles = [])
      (he : u.cmd.executing = none) : PlaneLaws b u := by
    refine ⟨(Planes.pair_iff i).2 ?_, ?_, ?_, ?_, ?_, fun j hj => ?_, fun j hj => ?_, fun _ x hx => ?_⟩
    · show PlanePair (u.planes.part i) (u.planes.part i.other)
      rw [hu, hpart, hpart, if_pos rfl, if_neg (PlaneId.other_ne i)]
      split
      · exact fun e => by cases e
      · exact fun e => by cases e
    · rw [hu, hc]
      refine ⟨fun e => absurd e hnc, fun ⟨j, hj⟩ => ?_⟩
      rw [hpart] at hj
      split_ifs at hj <;> cases hj
    · rw [hu]
      exact fun hne => absurd rfl hne
    · rw [hu]
      exact fun _ => hshown
    · rw [ht]
      exact fun hne => absurd rfl hne
    · rw [hl] at hj
      rw [hu, hpart]
      split
      · exact .inl rfl
      · next hji =>
        have hj' := h.sends j hj
        rw [(PlaneId.eq_or_other i j).resolve_left hji] at hj' ⊢
        have hs : s.planes.part i.other = some .shown := hj'.resolve_right fun e => by
          rcases h.beside (.inr rfl) hi with e' | e' <;> rw [e'] at e <;> cases e
        rw [if_pos ⟨hs, by rw [← (PlaneId.eq_or_other i j).resolve_left hji]; exact hj⟩]
        exact .inr rfl
    · rw [hu, hpart] at hj
      rw [hl]
      split_ifs at hj with h1 h2
      · cases hj
      · exact h2.2
    · rw [he] at hx
      cases hx
  unfold State.showReady State.supersede
  split
  · next he => exact laws rfl rfl rfl rfl he
  · exact laws rfl rfl rfl rfl rfl

/-! ### Lanes -/

/-- Lanes of which the same ones send from each plane, with the conflicts there were, keep every law. -/
theorem PlaneLaws.setLanes (h : PlaneLaws b s) {l : LaneController} (hs : ∀ (j : Fin 4) i, l.lane[j].sendsFrom i = s.lanes.lane[j].sendsFrom i)
    (hc : ∀ (j : Fin 4) i x, s.lanes.lane[j].conflicts i x = true → l.lane[j].conflicts i x = true) : PlaneLaws b (s.setLanes l) := by
  refine h.sameParts (fun _ => rfl) Iff.rfl h.showing h.queue h.tiles (fun i => ?_) fun hb x hx => ?_
  · rw [Bool.eq_iff_iff, State.setLanes_lanes, sendsFrom_iff, sendsFrom_iff]
    simp only [hs]
  · obtain ⟨i, hi, hconf⟩ := h.held hb x hx
    exact ⟨i, hi, sendConflict_iff.2 ((sendConflict_iff.1 hconf).imp fun j => hc j i x.tiles)⟩

/-- A lane that sends neither before nor after its change changes nothing. -/
theorem PlaneLaws.setLane (h : PlaneLaws b s) {l : LaneController} {i : Fin 4} {x : Lane} (hl : l.lane = s.lanes.lane.set i x)
    (hi : s.lanes.lane[i].state ≠ .sending) (hx : x.state ≠ .sending) : PlaneLaws b (s.setLanes l) := by
  have hlane (j : Fin 4) : l.lane[j] = if j = i then x else s.lanes.lane[j] := by
    rw [hl]
    exact getElem_set_fin ..
  refine h.setLanes (fun j k => ?_) fun j k y hj => ?_ <;> rw [hlane] <;> split
  · next e => rw [e, not_sendsFrom_of_state hx, not_sendsFrom_of_state hi]
  · rfl
  · next e =>
    rw [e, not_conflicts_of_state hi] at hj
    cases hj
  · exact hj

theorem PlaneLaws.sameLane (h : PlaneLaws b s) {l : LaneController} (hl : l.lane = s.lanes.lane) : PlaneLaws b (s.setLanes l) :=
  h.setLanes (fun j i => by rw [hl]) fun j i x hx => by
    rw [hl]
    exact hx

theorem PlaneLaws.count (h : PlaneLaws b s) :
    PlaneLaws b (s.setLanes { s.lanes with lane := mapVector (fun _ x => x.count) s.lanes.lane }) := by
  have hlane (j : Fin 4) : (mapVector (fun _ x => x.count) s.lanes.lane)[j] = s.lanes.lane[j].count := getElem_mapVector ..
  have hcount (l : Lane) : l.count.sendsFrom = l.sendsFrom ∧ l.count.conflicts = l.conflicts := by
    unfold Lane.count
    split <;> exact ⟨rfl, rfl⟩
  refine h.setLanes (fun j i => ?_) fun j i x hx => ?_ <;> simp only [hlane, hcount]
  exact hx

/-- R173: a dispatch starts a lane that sends from the SHOWN plane. -/
theorem PlaneLaws.dispatch {floor : Nat} (h : PlaneLaws b s) (hd : dispatchAbove floor s = some t) : PlaneLaws b t := by
  obtain ⟨i, plane, k, r, hi, hp, -, rfl⟩ := dispatchAbove_eq_some hd
  have hp := (Planes.find_eq_some h.pair).1 hp
  have hidle : s.lanes.lane[i].state ≠ .sending := by
    rw [idleLane_idle hi]
    decide
  have hlane (j : Fin 4) (hj : j ≠ i) : (s.lanes.start i r plane s.params s.tick).lane[j] = s.lanes.lane[j] := by
    rw [LaneController.start, LaneController.feed_lane, getElem_set_fin, if_neg hj]
  have hnew (q : PlaneId) : (s.lanes.start i r plane s.params s.tick).lane[i].sendsFrom q = (plane == q) := by
    rw [LaneController.start, LaneController.feed_lane, getElem_set_fin, if_pos rfl]
    rfl
  have hother {q : PlaneId} (j : Fin 4) (hj : s.lanes.lane[j].sendsFrom q = true) : j ≠ i := by
    rintro rfl
    rw [not_sendsFrom_of_state hidle] at hj
    cases hj
  obtain ⟨w, hw⟩ := noteDispatch_frame s.planes i r.source
  have hget (q : PlaneId) : (s.planes.noteDispatch i r.source).part q = s.planes.part q := by
    rw [hw]
    cases q <;> rfl
  refine ⟨?pair, ?composing, ?showing, fun _ => ⟨plane, (hget _).trans hp⟩, fun _ => ⟨plane, (hget _).trans hp⟩, fun q hq => ?sends,
    fun q hq => ?retiring, fun hb x hx => ?held⟩
  case pair =>
    rw [hw]
    exact h.pair
  case composing => exact h.composing.trans (exists_congr fun q => by rw [hget])
  case showing =>
    show (s.planes.noteDispatch i r.source).showing ≠ [] → (s.planes.noteDispatch i r.source).showPending = true
    unfold Planes.noteDispatch
    split
    · next hc =>
      rw [Bool.and_eq_true] at hc
      exact fun _ => hc.1
    · exact h.showing
  case sends =>
    rw [hget]
    obtain ⟨j, hj⟩ := sendsFrom_iff.1 hq
    by_cases hji : j = i
    · subst hji
      rw [hnew, beq_iff_eq] at hj
      exact .inl (hj ▸ hp)
    · rw [hlane j hji] at hj
      exact h.sends q (sendsFrom_iff.2 ⟨j, hj⟩)
  case retiring =>
    rw [hget] at hq
    obtain ⟨j, hj⟩ := sendsFrom_iff.1 (h.retiring q hq)
    exact sendsFrom_iff.2 ⟨j, by rw [hlane j (hother j hj)]; exact hj⟩
  case held =>
    obtain ⟨q, hq, hconf⟩ := h.held hb x hx
    obtain ⟨j, hj⟩ := sendConflict_iff.1 hconf
    have hji : j ≠ i := hother j (Bool.and_eq_true_iff.1 hj).1
    exact ⟨q, (hget q).trans hq, sendConflict_iff.2 ⟨j, by rw [hlane j hji]; exact hj⟩⟩

/-- Fewer lanes send, and a RETIRING plane that none reads any more becomes FREE. -/
theorem PlaneLaws.sendLess {c : Bool} (h : PlaneLaws b s) {l : LaneController} {p : Planes} (hl : ∀ i, l.sendsFrom i = true → s.lanes.sendsFrom i = true)
    (hp : ∀ i, p.part i = if s.planes.part i = some .retiring ∧ l.sendsFrom i = false then none else s.planes.part i)
    (hw : p.showing ≠ [] → p.showPending = true)
    (he : c = true → ∀ x, s.cmd.executing = some x → ∃ i, s.planes.part i = some .shown ∧ sendConflict l i x.tiles = true) :
    PlaneLaws c ((s.setLanes l).setPlanes p) := by
  have keep {x : Part} (hx : x ≠ .retiring) (i : PlaneId) : p.part i = some x ↔ s.planes.part i = some x := by
    rw [hp]
    split
    · next e =>
      rw [e.1]
      exact ⟨fun e => (by cases e), fun e => absurd (Option.some.inj e).symm hx⟩
    · rfl
  refine ⟨?pair, ?composing, hw, fun hne => ?queue, fun hne => ?tiles, fun i hi => ?sends, fun i hi => ?retiring, fun hc x hx => ?held⟩
  case pair =>
    refine (Planes.pair_iff .a).2 ?_
    show PlanePair (p.part .a) (p.part .b)
    rw [hp, hp]
    have hpair : PlanePair (s.planes.part .a) (s.planes.part .b) := h.pair
    split <;> split
    · trivial
    · next ha _ =>
      rw [ha.1] at hpair
      exact planePair_free (by decide) hpair
    · next hb =>
      rw [hb.1] at hpair
      exact planePair_comm (planePair_free (by decide) (planePair_comm hpair))
    · exact hpair
  case composing => exact h.composing.trans (exists_congr fun i => (keep (by decide) i).symm)
  case queue => exact (h.queue hne).imp fun i => (keep (by decide) i).2
  case tiles => exact (h.tiles hne).imp fun i => (keep (by decide) i).2
  case sends =>
    rcases h.sends i (hl i hi) with hs | hr
    · exact .inl ((keep (by decide) i).2 hs)
    · refine .inr ((hp i).trans ((if_neg fun e => ?_).trans hr))
      rw [show l.sendsFrom i = true from hi] at e
      cases e.2
  case retiring =>
    have hi : p.part i = some .retiring := hi
    rw [hp] at hi
    split at hi
    · cases hi
    · next e => exact Bool.not_eq_false _ ▸ fun hf => e ⟨hi, hf⟩
  case held => exact (he hc x hx).imp fun i hi => ⟨(keep (by decide) i).2 hi.1, hi.2⟩

theorem Planes.part_freePart {p : Planes} (hp : PlanePair p.a.part p.b.part) (x : Part) (i : PlaneId) :
    (p.freePart x).part i = if p.part i = some x then none else p.part i := by
  unfold Planes.freePart
  split
  · next hf => exact (if_neg ((Planes.find_eq_none p).1 hf i)).symm
  · next k hk =>
    rw [Planes.part_free]
    simp only [← Planes.find_eq_some hp, hk, Option.some.injEq, @eq_comm _ k]

/-- R107 and R111: after an abort no lane sends, so that a RETIRING plane is FREE. -/
theorem PlaneLaws.abort (h : PlaneLaws b s) (he : s.cmd.executing = none) :
    PlaneLaws b ((s.setLanes s.lanes.abort).setPlanes (Planes.freePart { s.planes with showing := [] } .retiring)) := by
  have hnot (i : PlaneId) : s.lanes.abort.sendsFrom i = false := by
    rw [← Bool.not_eq_true, sendsFrom_iff]
    rintro ⟨j, hj⟩
    rw [show s.lanes.abort.lane[j] = { s.lanes.lane[j] with state := .idle } from getElem_mapVector ..,
      not_sendsFrom_of_state (fun e => by cases e)] at hj
    cases hj
  refine h.sendLess (fun i hi => ?_) (fun i => ?_) (fun hne => absurd (Planes.freePart_showing ..) hne) fun _ x hx => ?_
  · rw [hnot] at hi
    cases hi
  · rw [Planes.part_freePart (p := { s.planes with showing := [] }) h.pair]
    simp only [hnot, and_true]
    rfl
  · rw [he] at hx
    cases hx

/-! ### A send's end -/

theorem Lane.sendsFrom_update {x : Lane} {q : PlaneId} (h : x.sendsFrom q = true) : ∃ u, x.update = some u ∧ u.plane = q := by
  obtain ⟨state, seq, update, elapsed⟩ := x
  cases update with
  | none => simp [Lane.sendsFrom] at h
  | some u =>
    refine ⟨u, rfl, ?_⟩
    simp only [Lane.sendsFrom, Bool.and_eq_true, beq_iff_eq] at h
    exact h.2

/-- R110: a plane that plays RETIRING, and from which no lane sends, is freed. -/
theorem freeRetired_part (hp : PlanePair s.planes.a.part s.planes.b.part) : ∃ p : Planes, s.freeRetired = s.setPlanes p ∧
    (p.showing = s.planes.showing ∧ p.showPending = s.planes.showPending) ∧
    ∀ i, p.part i = if s.planes.part i = some .retiring ∧ s.lanes.sendsFrom i = false then none else s.planes.part i := by
  unfold State.freeRetired
  split
  · next hf => exact ⟨_, rfl, ⟨rfl, rfl⟩, fun i => (if_neg fun e => (Planes.find_eq_none s.planes).1 hf i e.1).symm⟩
  · next k hk =>
    have hk' (i : PlaneId) : s.planes.part i = some .retiring ↔ i = k := by
      rw [← Planes.find_eq_some hp, hk, Option.some.injEq, eq_comm]
    split
    · next hs =>
      refine ⟨_, rfl, ⟨rfl, rfl⟩, fun i => (if_neg fun e => ?_).symm⟩
      rw [hk'] at e
      rw [e.1, hs] at e
      cases e.2
    · next hs =>
      refine ⟨_, rfl, ⟨Planes.free_showing .., Planes.set_showPending ..⟩, fun i => ?_⟩
      rw [Planes.part_free]
      simp only [hk']
      by_cases hi : i = k
      · rw [if_pos hi, if_pos ⟨hi, by rw [hi]; simpa using hs⟩]
      · rw [if_neg hi, if_neg fun e => hi e.1]

theorem endSend_lane (l : LaneController) (i j : Fin 4) (px : PlaneId → Pixels) :
    (l.endSend i px).lane[j] = if j = i then { l.lane[i] with state := .waiting, elapsed := 0 } else l.lane[j] := getElem_set_fin ..

/-- R110: a lane sends no more; what it alone kept RETIRING is freed. -/
theorem PlaneLaws.sendEnded_of {c : Bool} (h : PlaneLaws b s) (i : Fin 4)
    (he : c = true → ∀ x, s.cmd.executing = some x → ∃ q, s.planes.part q = some .shown ∧
      sendConflict (s.lanes.endSend i fun p => (s.planes.get p).pixels) q x.tiles = true) : PlaneLaws c (s.sendEnded i) := by
  obtain ⟨p, hfree, ⟨hw, hwp⟩, hp⟩ := freeRetired_part (s := s.setLanes (s.lanes.endSend i fun p => (s.planes.get p).pixels)) h.pair
  rw [State.sendEnded, hfree]
  refine h.sendLess (fun q hq => ?_) hp ?_ he
  · obtain ⟨j, hj⟩ := sendsFrom_iff.1 hq
    rw [endSend_lane] at hj
    split at hj
    · rw [not_sendsFrom_of_state (fun e => by cases e)] at hj
      cases hj
    · exact sendsFrom_iff.2 ⟨j, hj⟩
  · rw [hw, hwp]
    exact h.showing

theorem PlaneLaws.sendEnded_untested (h : PlaneLaws b s) (i : Fin 4) : PlaneLaws false (s.sendEnded i) := h.sendEnded_of i fun e => by cases e

/-- R130: a held re-render may have lost its conflict, if the lane read the front plane. -/
theorem PlaneLaws.sendEnded (h : PlaneLaws true s) (i : Fin 4) : PlaneLaws (!s.lanes.lane[i].readsFront s.planes) (s.sendEnded i) := by
  refine h.sendEnded_of i fun hr x hx => ?_
  obtain ⟨q, hq, hconf⟩ := h.held rfl x hx
  obtain ⟨j, hj⟩ := sendConflict_iff.1 hconf
  have hji : j ≠ i := by
    rintro rfl
    obtain ⟨u, hu, hup⟩ := Lane.sendsFrom_update (Bool.and_eq_true_iff.1 hj).1
    rw [Lane.readsFront, hu] at hr
    simp [(Planes.find_eq_some h.pair).2 hq, hup] at hr
  exact ⟨q, hq, sendConflict_iff.2 ⟨j, by rw [endSend_lane, if_neg hji]; exact hj⟩⟩

/-! ### The moves -/

theorem PlaneLaws.move {o : Origin} (m : Move o s t) (h : PlaneLaws b s) : PlaneLaws b t := by
  have hcommit (u : State) (l : EndingLine) (hu : PlaneLaws b u) : PlaneLaws b (u.commit l).state := hu.commit l
  cases m with
  | appendNew code cls => exact afterAppend_keeps hcommit cls (h.join _)
  | reappend e rest => exact afterAppend_keeps hcommit e.cls (PlaneLaws.join (h.setComp (c := { s.comp with carry := rest }) rfl) e)
  | pageFull => exact h.pageFull
  | breakTest => exact breakTest_keeps hcommit h
  | endParagraph => exact endParagraph_keeps hcommit (fun u hu => hu.setComp rfl) h
  | closePage => exact h.closePage
  | openPage i number frame _ hi => exact h.openOn hi rfl rfl rfl rfl rfl rfl
  | awaitPlane number frame _ _ hn => exact h.awaitPlane hn
  | grant => exact h.grant
  | freeReady i hi => exact h.freeReady hi
  | showReady i hi => exact h.showReady hi
  | streamReset => exact h.streamReset rfl rfl rfl rfl rfl rfl
  | openNote i page n => exact PlaneLaws.congr (h.setPage i _) rfl rfl rfl rfl rfl rfl
  | paintNote | eraseNote => exact h.setPage ..
  | closeNote id =>
    have hm := h.mapComposingPage fun page => { page with notes := Machine.closeNote s.comp.nextOrdinal id page.notes }
    obtain ⟨p, hp⟩ := mapComposingPage_eq s fun page => { page with notes := Machine.closeNote s.comp.nextOrdinal id page.notes }
    rw [hp] at hm ⊢
    exact hm.congr rfl rfl rfl rfl rfl rfl
  | drawHeld x hp => exact h.drawHeld hp x
  | drawTested x _ hp => exact (PlaneLaws.weaken (PlaneLaws.unhold h)).drawHeld hp x
  | hold _ x i hi hc =>
    refine h.sameParts (fun _ => rfl) Iff.rfl h.showing h.queue h.tiles (fun _ => rfl) fun _ y hy => ?_
    cases hy
    exact ⟨i, (Planes.find_eq_some h.pair).1 hi, hc⟩
  | unhold => exact h.unhold.weaken
  | queueHold => exact h.queueHold
  | request source mode q hp => exact h.enqueue (Planes.find_isSome.1 hp) source mode q
  | clearQueue => exact h.sameParts (fun _ => rfl) Iff.rfl h.showing (fun hne => absurd rfl hne) h.tiles (fun _ => rfl) h.held
  | dispatch _ _ hd => exact h.dispatch hd
  | receive x hx => exact h.sameLane rfl
  | duration m d => cases m <;> exact h.sameLane rfl
  | finish i hw =>
    have hp : PlaneLaws b (s.setPlanes (if s.planes.showing.contains i then { s.planes with showPending := false, showing := [] } else s.planes)) := by
      refine h.setPlanes (fun j => ?_) ?_ <;> split
      · cases j <;> rfl
      · rfl
      · exact fun hne => absurd rfl hne
      · exact h.showing
    exact hp.setLane rfl (by rw [State.setPlanes_lanes, hw]; decide) (fun e => by cases e)
  | timeout i hw =>
    have hp : PlaneLaws b (s.setPlanes { s.planes with showing := s.planes.showing.erase i }) :=
      h.setPlanes (fun j => by cases j <;> rfl) fun hne => h.showing fun e => hne (by rw [e]; rfl)
    exact hp.setLane rfl (by rw [State.setPlanes_lanes, hw]; decide) (fun e => by cases e)
  | count => exact h.count
  | abort he => exact h.abort he
  | beginTable | faultTable | defineGlyph | endTable | dropTable =>
    rw [setTable_eq]
    exact h.congr rfl rfl rfl rfl rfl rfl
  | _ => exact h.congr rfl rfl rfl rfl rfl rfl

/-- R130: the test of a held re-render brings back its law. -/
theorem PlaneLaws.testHeld (h : PlaneLaws false s) : PlaneLaws true s.testHeld := by
  rcases testHeld_cases (o := .other) s with ⟨he, hc⟩ | he | ⟨x, -, hp, hm⟩
  · rw [he]
    exact { h with held := fun _ x hx => (hc x hx).imp fun i hi => ⟨(Planes.find_eq_some h.pair).1 hi.1, hi.2⟩ }
  · rw [he]
    exact h.unhold
  · exact Moves.keep (fun _ _ => PlaneLaws.move) hm ((PlaneLaws.unhold h).drawHeld hp x)

theorem PlaneLaws.testHeldIf {c : Bool} (h : PlaneLaws (!c) s) : PlaneLaws true (s.testHeldIf c) := by
  cases c with
  | false => exact h
  | true => exact h.testHeld

theorem PlaneLaws.blank (p : State) : PlaneLaws true { State.reset with
    planes := { Planes.reset with a := { Plane.free with pixels := p.planes.a.pixels }, b := { Plane.free with pixels := p.planes.b.pixels } } } := by
  have hfree (i : PlaneId) : Planes.part { Planes.reset with
      a := { Plane.free with pixels := p.planes.a.pixels }, b := { Plane.free with pixels := p.planes.b.pixels } } i = none := by
    cases i <;> rfl
  have hnot (i : PlaneId) : LaneController.reset.sendsFrom i ≠ true := by
    rw [Ne, sendsFrom_iff]
    rintro ⟨j, hj⟩
    rw [show LaneController.reset.lane[j] = Lane.reset from Vector.getElem_replicate ..] at hj
    cases hj
  refine ⟨trivial, ⟨fun e => (by cases e), fun ⟨i, e⟩ => ?_⟩, fun hne => absurd rfl hne, fun hne => absurd rfl hne, fun hne => absurd rfl hne,
    fun i hi => absurd hi (hnot i), fun i hi => ?_, fun _ x hx => by cases hx⟩
  · rw [hfree] at e
    cases e
  · rw [hfree] at hi
    cases hi

theorem PlaneLaws.reset (h : execPowerOnReset s = .next t) : PlaneLaws true t := by
  cases h
  exact (PlaneLaws.blank s).congr rfl rfl rfl rfl rfl rfl

end Sys2Proof.Machine
end

section

open Sys2Proof Sys2Proof.Machine

/-- Settles O54: every move keeps the laws, and within a send's end, which may leave a held re-render without a conflict, the test that follows brings its law back. -/
theorem stepKeepsPlaneSafe : Obligations.StepKeepsPlaneSafe := by
  intro s t hs hstep
  rw [planeSafe_iff] at hs ⊢
  exact step_keeps_tested (P := fun b => PlaneLaws b) (fun _ _ _ _ => PlaneLaws.move) (fun _ x h => h.congr rfl rfl rfl rfl rfl rfl) (fun _ _ _ hr => PlaneLaws.reset hr)
    (fun u i h _ => h.sendEnded i) (fun _ _ h => h.testHeldIf) (fun u h => h.sameLane (LaneController.feed_lane _)) hs hstep

end

section
/-! PROOFS. Chapter 6: the pages that planes hold, and what the changes of planes do to them. -/

namespace Sys2Proof.Machine

open Sys2Proof

variable {s t : State} {p q : Planes} {i j : PlaneId} {b : Bool}

/-! ### What a plane holds -/

/-- The page of a plane, with the part it plays. -/
abbrev Planes.held (p : Planes) (i : PlaneId) : Option Held := (p.get i).held

theorem Planes.held_set (p : Planes) (i j : PlaneId) (x : Plane) : (p.set i x).held j = if j = i then x.held else p.held j := by
  rw [Planes.held, Planes.get_set_eq]
  split <;> rfl

theorem Planes.held_setPage (p : Planes) (i j : PlaneId) (page : Page) :
    (p.setPage i page).held j = if j = i then (p.held i).map fun x => { x with page } else p.held j := Planes.held_set ..

theorem Planes.held_setPart (p : Planes) (i j : PlaneId) (x : Part) :
    (p.setPart i x).held j = if j = i then (p.held i).map fun h => { h with part := x } else p.held j := Planes.held_set ..

theorem Planes.held_setPixels (p : Planes) (i j : PlaneId) (x : Pixels) : (p.setPixels i x).held j = p.held j := by
  rw [Planes.setPixels, Planes.held_set]
  split
  · next e => rw [e]
  · rfl

theorem Planes.held_free (p : Planes) (i j : PlaneId) : (p.free i).held j = if j = i then none else p.held j := Planes.held_set ..

theorem Planes.held_openOn (p : Planes) (i j : PlaneId) (page : Page) :
    (p.openOn i page).held j = if j = i then some { part := .composing, page } else p.held j := Planes.held_set ..

theorem Planes.part_eq_some {x : Part} : p.part i = some x ↔ ∃ page, p.held i = some { part := x, page } := by
  rw [Planes.part, Plane.part, Option.map_eq_some_iff]
  constructor
  · rintro ⟨⟨_, page⟩, h, rfl⟩
    exact ⟨page, h⟩
  · rintro ⟨page, h⟩
    exact ⟨_, h, rfl⟩

theorem held_of_pageOf {x : Part} {page : Page} (h : p.pageOf x = some (i, page)) : p.held i = some { part := x, page } := (Planes.pageOf_eq_some _ _ h).2

theorem PlaneLaws.pageOf_iff (h : PlaneLaws b s) {x : Part} {page : Page} :
    s.planes.pageOf x = some (i, page) ↔ s.planes.held i = some { part := x, page } := by
  refine ⟨held_of_pageOf, fun hh => ?_⟩
  have hf := (Planes.find_eq_some h.pair).2 (Planes.part_eq_some.2 ⟨page, hh⟩)
  have hh : (s.planes.get i).held = some { part := x, page } := hh
  simp [Planes.pageOf, hf, hh]

/-- R96: at most one plane plays a part. -/
theorem PlaneLaws.unique (h : PlaneLaws b s) {x : Part} (hi : s.planes.part i = some x) (hj : s.planes.part j = some x) : j = i := by
  rw [← Planes.find_eq_some h.pair] at hi hj
  rw [hi] at hj
  exact (Option.some.inj hj).symm

theorem PlaneLaws.composingPage_isSome (h : PlaneLaws b s) : s.composingPage.isSome = true ↔ s.comp.state = .composing :=
  (pageOf_isSome (p := s.planes)).trans h.composing.symm

theorem PlaneLaws.composingPage_none (h : PlaneLaws b s) : s.composingPage = none ↔ s.comp.state ≠ .composing := by
  rw [Ne, ← h.composingPage_isSome, Bool.not_eq_true, Option.isSome_eq_false_iff, Option.isNone_iff_eq_none]

theorem PlaneLaws.state_of_held (h : PlaneLaws b s) {x : Held} (hx : s.planes.held i = some x) (hp : x.part = .composing) : s.comp.state = .composing :=
  h.composing.2 ⟨i, Planes.part_eq_some.2 ⟨x.page, by rw [hx, ← hp]⟩⟩

/-! ### A property of every page -/

/-- Every page that a plane holds has a property. -/
def Planes.Each (p : Planes) (Q : Held → Prop) : Prop := ∀ i x, p.held i = some x → Q x

variable {Q Q' : Held → Prop}

theorem Planes.Each.mono (h : p.Each Q) (hQ : ∀ x, Q x → Q' x) : p.Each Q' := fun i x hx => hQ x (h i x hx)

/-- The composing page is replaced; the other plane's page, which is not COMPOSING, stays. -/
theorem PlaneLaws.each_setPage (hp : PlaneLaws b s) {page page' : Page} (hi : s.composingPage = some (i, page)) (h : s.planes.Each Q)
    (hother : ∀ x, x.part ≠ .composing → Q x → Q' x) (hnew : Q' { part := .composing, page := page' }) : (s.planes.setPage i page').Each Q' := by
  intro j x hx
  have hi := held_of_pageOf hi
  rw [Planes.held_setPage] at hx
  split at hx
  · rw [hi] at hx
    cases hx
    exact hnew
  · next hji =>
    refine hother x (fun hc => hji ?_) (h j x hx)
    exact hp.unique (Planes.part_eq_some.2 ⟨_, hi⟩) (Planes.part_eq_some.2 ⟨x.page, by rw [hx, ← hc]⟩)

/-- The composing page is replaced and becomes READY. -/
theorem PlaneLaws.each_ready (hp : PlaneLaws b s) {page page' : Page} (hi : s.composingPage = some (i, page)) (h : s.planes.Each Q)
    (hother : ∀ x, x.part ≠ .composing → Q x → Q' x) (hnew : Q' { part := .ready, page := page' }) :
    ((s.planes.setPage i page').setPart i .ready).Each Q' := by
  intro j x hx
  have hi := held_of_pageOf hi
  rw [Planes.held_setPart, Planes.held_setPage, Planes.held_setPage, if_pos rfl] at hx
  split at hx
  · rw [hi] at hx
    cases hx
    exact hnew
  · next hji =>
    refine hother x (fun hc => hji ?_) (h j x hx)
    exact hp.unique (Planes.part_eq_some.2 ⟨_, hi⟩) (Planes.part_eq_some.2 ⟨x.page, by rw [hx, ← hc]⟩)

/-- A page opens on an available plane, beside one that is not COMPOSING. -/
theorem Planes.Each.openOn (h : p.Each Q) (hi : p.available = some i) {page : Page} (hother : ∀ x, x.part ≠ .composing → Q x → Q' x)
    (hnew : Q' { part := .composing, page }) : (p.openOn i page).Each Q' := by
  obtain ⟨-, hnc, -⟩ := (Planes.availableAt_iff ..).1 (Planes.available_eq_some hi)
  intro j x hx
  rw [Planes.held_openOn] at hx
  split at hx
  · cases hx
    exact hnew
  · next hji =>
    refine hother x (fun hc => hnc ?_) (h j x hx)
    rw [← (PlaneId.eq_or_other i j).resolve_left hji]
    exact Planes.part_eq_some.2 ⟨x.page, by rw [hx, ← hc]⟩

/-- Any page is replaced, in its part. -/
theorem Planes.Each.setPage (h : p.Each Q) {part : Part} {page page' : Page} (hi : p.pageOf part = some (i, page))
    (hnew : Q { part, page } → Q { part, page := page' }) : (p.setPage i page').Each Q := by
  intro j x hx
  have hi := held_of_pageOf hi
  rw [Planes.held_setPage] at hx
  split at hx
  · rw [hi] at hx
    cases hx
    exact hnew (h i _ hi)
  · exact h j x hx

theorem Planes.Each.setPixels (h : p.Each Q) (i : PlaneId) (x : Pixels) : (p.setPixels i x).Each Q := fun j y hy =>
  h j y ((Planes.held_setPixels ..).symm.trans hy)

/-! ### Pages freed or shown -/

/-- The planes `q` hold no page that `p` do not, in the same part as to COMPOSING. -/
def Planes.Fewer (p q : Planes) : Prop :=
  ∀ i x, q.held i = some x → ∃ y, p.held i = some y ∧ x.page = y.page ∧ (x.part = .composing ↔ y.part = .composing)

theorem Planes.Each.fewer (h : p.Each Q) (hq : p.Fewer q) (hQ : ∀ x y : Held, x.page = y.page → (x.part = .composing ↔ y.part = .composing) → Q y → Q x) :
    q.Each Q := fun i x hx => by
  obtain ⟨y, hy, hpage, hpart⟩ := hq i x hx
  exact hQ x y hpage hpart (h i y hy)

theorem Planes.Fewer.of_held (h : ∀ i, q.held i = p.held i) : p.Fewer q := fun i x hx => ⟨x, (h i).symm.trans hx, rfl, Iff.rfl⟩

theorem Planes.Fewer.refl (p : Planes) : p.Fewer p := .of_held fun _ => rfl

theorem Planes.Fewer.trans {r : Planes} (h : p.Fewer q) (k : q.Fewer r) : p.Fewer r := fun i x hx => by
  obtain ⟨y, hy, h1, h2⟩ := k i x hx
  obtain ⟨z, hz, h3, h4⟩ := h i y hy
  exact ⟨z, hz, h1.trans h3, h2.trans h4⟩

theorem Planes.fewer_free (p : Planes) (i : PlaneId) : p.Fewer (p.free i) := fun j x hx => by
  rw [Planes.held_free] at hx
  split at hx
  · cases hx
  · exact ⟨x, hx, rfl, Iff.rfl⟩

theorem Planes.fewer_freePart (p : Planes) (x : Part) : p.Fewer (p.freePart x) := by
  unfold Planes.freePart
  split
  · exact .refl p
  · exact Planes.fewer_free _ _

theorem Planes.fewer_dropComposing (p : Planes) : p.Fewer p.dropComposing := Planes.fewer_freePart p .composing

theorem Planes.fewer_setPixels (p : Planes) (i : PlaneId) (x : Pixels) : p.Fewer (p.setPixels i x) := .of_held fun _ => Planes.held_setPixels ..

theorem Planes.fewer_setPart {x y : Part} (h : p.part i = some x) (hx : x ≠ .composing) (hy : y ≠ .composing) : p.Fewer (p.setPart i y) := fun j z hz => by
  rw [Planes.held_setPart] at hz
  split at hz
  · next e =>
    obtain ⟨page, hp⟩ := Planes.part_eq_some.1 h
    rw [hp] at hz
    cases hz
    exact ⟨{ part := x, page }, e ▸ hp, rfl, ⟨fun e => absurd e hy, fun e => absurd e hx⟩⟩
  · exact ⟨z, hz, rfl, Iff.rfl⟩

theorem fewer_flipPlanes (l : LaneController) (hi : p.part i = some .ready) : p.Fewer (flipPlanes p l i) := by
  have hset {q : Planes} (hpq : p.Fewer q) (hq : q.part i = some .ready) :
      p.Fewer { q.setPart i .shown with showPending := true, showing := [] } := by
    refine (hpq.trans (Planes.fewer_setPart (y := .shown) hq (by decide) (by decide))).trans (.of_held fun j => ?_)
    cases j <;> rfl
  unfold flipPlanes
  dsimp only
  split
  · exact hset (.refl p) hi
  · next old hf =>
    have hold := Planes.part_of_find p old hf
    have hio : i ≠ old := fun e => by
      rw [← e, show (p.get i).part = some .ready from hi] at hold
      cases hold
    split
    · exact hset (Planes.fewer_setPart hold (by decide) (by decide)) (by rw [Planes.part_setPart, if_neg hio, hi])
    · exact hset (Planes.fewer_free _ _) (by rw [Planes.part_free, if_neg hio, hi])

theorem redraw_fewer (s : State) (lines : List Nat) : s.planes.Fewer (s.redraw lines).planes := by
  unfold State.redraw
  split
  · exact .refl _
  · exact Planes.fewer_setPixels _ _ _

theorem drawHeld_fewer (s : State) (x : HeldPaint) : s.planes.Fewer (s.drawHeld x).planes := by
  obtain ⟨q, n, hq⟩ := holdTiles_frame (s.redraw x.lines) x.tiles
  rw [State.drawHeld, hq]
  exact redraw_fewer s x.lines

theorem showReady_planes (s : State) (i : PlaneId) : (s.showReady i).planes = flipPlanes s.planes s.lanes i := by
  unfold State.showReady State.supersede
  split <;> rfl

theorem freeRetired_fewer (s : State) : ∃ p, s.freeRetired = s.setPlanes p ∧ s.planes.Fewer p := by
  unfold State.freeRetired
  split
  · exact ⟨s.planes, rfl, .refl _⟩
  · split
    · exact ⟨s.planes, rfl, .refl _⟩
    · exact ⟨_, rfl, Planes.fewer_free _ _⟩

theorem dispatchAbove_fewer {floor : Nat} (h : dispatchAbove floor s = some t) : s.planes.Fewer t.planes := by
  obtain ⟨k, plane, r, i, -, -, -, rfl⟩ := dispatchAbove_eq_some h
  obtain ⟨w, hw⟩ := noteDispatch_frame s.planes k i.source
  refine .of_held fun j => ?_
  show Planes.held (s.planes.noteDispatch k i.source) j = _
  rw [hw]
  cases j <;> rfl

/-! ### Changes that the stream does not make -/

/-- The Composer, the faces, the tables and the open-note list are as they were, and the planes hold no page that they did not. -/
structure Quiet (s t : State) : Prop where
  comp : t.comp = s.comp
  faces : t.faces = s.faces
  glyphs : t.glyphs = s.glyphs
  openIds : t.notes.openIds = s.notes.openIds
  planes : s.planes.Fewer t.planes

theorem Quiet.of_planes (hc : t.comp = s.comp) (hf : t.faces = s.faces) (hg : t.glyphs = s.glyphs) (ho : t.notes.openIds = s.notes.openIds)
    (hp : ∀ i, t.planes.held i = s.planes.held i) : Quiet s t := ⟨hc, hf, hg, ho, .of_held hp⟩

theorem quiet_setPlanes (hp : s.planes.Fewer p) : Quiet s (s.setPlanes p) := ⟨rfl, rfl, rfl, rfl, hp⟩

theorem queueHold_quiet (s : State) : Quiet s s.queueHold := by
  unfold State.queueHold
  split <;> exact .of_planes rfl rfl rfl rfl fun _ => rfl

theorem drawHeld_quiet (s : State) (x : HeldPaint) : Quiet s (s.drawHeld x) := by
  have hp := drawHeld_fewer s x
  obtain ⟨q, n, p, he⟩ := drawHeld_frame s x
  rw [he] at hp ⊢
  exact ⟨rfl, rfl, rfl, rfl, hp⟩

theorem drawTested_quiet (s : State) (x : HeldPaint) : Quiet s ((s.setCmd { s.cmd with executing := none }).drawHeld x) :=
  have h := drawHeld_quiet (s.setCmd { s.cmd with executing := none }) x
  ⟨h.comp, h.faces, h.glyphs, h.openIds, h.planes⟩

theorem showReady_quiet (hi : s.planes.find .ready = some i) : Quiet s (s.showReady i) := by
  refine ⟨?_, ?_, ?_, ?_, by rw [showReady_planes]; exact fewer_flipPlanes _ (Planes.part_of_find _ _ hi)⟩ <;>
    (unfold State.showReady State.supersede; split <;> rfl)

theorem dispatchAbove_quiet {floor : Nat} (h : dispatchAbove floor s = some t) : Quiet s t := by
  have hp := dispatchAbove_fewer h
  obtain ⟨k, plane, r, i, -, -, -, rfl⟩ := dispatchAbove_eq_some h
  exact ⟨rfl, rfl, rfl, rfl, hp⟩

theorem held_report (p : Planes) (x : Bool) (w : List (Fin 4)) (i : PlaneId) : Planes.held { p with showPending := x, showing := w } i = p.held i := by
  cases i <;> rfl

theorem finish_quiet (s : State) (i : Fin 4) :
    Quiet s ((s.setPlanes (if s.planes.showing.contains i then { s.planes with showPending := false, showing := [] } else s.planes)).setLanes
      (s.lanes.setState i .idle)) := by
  refine .of_planes rfl rfl rfl rfl fun j => ?_
  rw [State.setLanes_planes, State.setPlanes_planes]
  split
  · exact held_report ..
  · rfl

theorem timeout_quiet (s : State) (i : Fin 4) :
    Quiet s ((s.setPlanes { s.planes with showing := s.planes.showing.erase i }).setLanes (s.lanes.setState i .faulted)) :=
  .of_planes rfl rfl rfl rfl fun _ => held_report ..

theorem abort_quiet (s : State) : Quiet s ((s.setLanes s.lanes.abort).setPlanes (Planes.freePart { s.planes with showing := [] } .retiring)) :=
  ⟨rfl, rfl, rfl, rfl, (Planes.Fewer.of_held fun _ => held_report ..).trans (Planes.fewer_freePart _ _)⟩

theorem sendEnded_quiet (s : State) (k : Fin 4) : Quiet s (s.sendEnded k) := by
  obtain ⟨p, he, hp⟩ := freeRetired_fewer (s.setLanes (s.lanes.endSend k fun p => (s.planes.get p).pixels))
  rw [State.sendEnded, he]
  exact ⟨rfl, rfl, rfl, rfl, hp⟩

end Sys2Proof.Machine
end

section
/-! PROOFS. Chapter 4: breaks and the lines they end. -/

namespace Sys2Proof.Machine

open Sys2Proof

variable {P : State → Prop} {s t : State}

/-! ### The lines that commits take -/

theorem scanBreaks_len {shrink : Nat} {measure : Int} {hyphen : Nat → Nat} {es : List Entry} {n : Nat} {k : Break}
    (h : scanBreaks shrink measure hyphen es n = some k) : 0 < k.len := by
  induction n with
  | zero => cases h
  | succ n ih =>
    unfold scanBreaks at h
    split at h
    · next c hc =>
      cases h
      unfold candidateAt at hc
      dsimp only at hc
      split at hc
      · cases hc
      · split_ifs at hc <;> cases hc <;> exact Nat.succ_pos n
    · exact ih h

theorem forcedLength_pos (measure : Int) (es : List Entry) (n : Nat) : 0 < forcedLength measure es n := by
  induction n with
  | zero => exact Nat.one_pos
  | succ n ih =>
    unfold forcedLength
    split
    · exact Nat.succ_pos n
    · exact ih

/-- R61 to R63: a chosen break has an entry before its place. -/
theorem chooseBreak_len (shrink : Nat) (measure : Int) (hyphen : Nat → Nat) (es : List Entry) : 0 < (chooseBreak shrink measure hyphen es).len := by
  unfold chooseBreak
  split
  · next h => exact scanBreaks_len h
  · unfold forcedBreak
    split
    · exact forcedLength_pos ..
    · exact Nat.one_pos

/-- The line takes entries from the front of the line buffer. -/
def EndingLine.StartsBuffer (l : EndingLine) (s : State) : Prop := l.entries <+: s.comp.buffer ∧ l.entries ≠ []

theorem brokenLine_starts (hm : 0 ≤ s.measure) (hf : s.pendingFits = false) : (brokenLine s.comp.buffer s.pendingBreak).StartsBuffer s := by
  refine ⟨List.take_prefix .., fun e => ?_⟩
  have hlen : 0 < s.pendingBreak.len := chooseBreak_len ..
  rcases List.take_eq_nil_iff.1 e with h | h
  · unfold lineEnd at h
    omega
  · unfold State.pendingFits at hf
    rw [h] at hf
    have : fits s.params.shrink s.measure 0 [] = true := by simp [fits, naturalWidth, spanSum, hm]
    rw [show trimSpaces [] = [] from rfl, this] at hf
    cases hf

/-- What every commit of a line from the buffer's front keeps, the break test keeps, where the measure is not negative. -/
theorem breakTest_keeps_starting (hcommit : ∀ s l, P s → EndingLine.StartsBuffer l s → P (State.commit s l).state) (hmeasure : ∀ s, P s → 0 ≤ State.measure s)
    (h : P s) : P s.breakTest.state := by
  unfold State.breakTest
  generalize s.comp.buffer.length = n
  induction n generalizing s with
  | zero => exact h
  | succ n ih =>
    unfold breakUpTo
    split
    · exact h
    · next hf => exact andThen_keeps (hcommit s _ h (brokenLine_starts (hmeasure s h) (by simpa using hf))) fun t ht => ih ht

theorem bufferFull_keeps_starting (hcommit : ∀ s l, P s → EndingLine.StartsBuffer l s → P (State.commit s l).state) (h : P s) : P s.bufferFull.state := by
  unfold State.bufferFull
  split
  · next hl =>
    refine hcommit s _ h ⟨List.prefix_rfl, fun e => ?_⟩
    rw [show s.comp.buffer = [] from e] at hl
    cases hl
  · exact h

theorem afterAppend_keeps_starting (hcommit : ∀ s l, P s → EndingLine.StartsBuffer l s → P (State.commit s l).state) (hmeasure : ∀ s, P s → 0 ≤ State.measure s)
    (cls : Nat) (hb : s.comp.buffer ≠ []) (h : P s) : P (s.afterAppend cls).state := by
  unfold State.afterAppend
  refine andThen_keeps ?_ fun t ht => bufferFull_keeps_starting hcommit ht
  split
  · exact hcommit s _ h ⟨List.prefix_rfl, hb⟩
  · exact breakTest_keeps_starting hcommit hmeasure h

/-- R71: a paragraph's end commits the buffer, if it holds an entry, and makes the paragraph record absent, unless the page was full. -/
theorem endParagraph_state (s : State) : s.endParagraph.state = s.setComp { s.comp with para := none } ∨
    (lastLine s.comp.buffer).StartsBuffer s ∧ ∃ u, u = (s.commit (lastLine s.comp.buffer)).state ∧
      (s.endParagraph.state = u ∨ s.endParagraph.state = u.setComp { u.comp with para := none }) := by
  unfold State.endParagraph
  dsimp only
  split
  · exact .inl rfl
  · next hb =>
    refine .inr ⟨⟨List.prefix_rfl, fun e => hb (List.isEmpty_iff.2 e)⟩, _, rfl, ?_⟩
    cases s.commit (lastLine s.comp.buffer) with
    | placed u => exact .inr rfl
    | full u => exact .inl rfl

/-! ### Where a commit is PAGE_FULL handling -/

theorem commit_full {l : EndingLine} (h : s.commit l = .full t) : s.composingPage.isSome = true ∧ t = s.pageFull := by
  cases hp : s.composingPage with
  | none =>
    rw [commit_none hp] at h
    cases h
  | some p =>
    rw [commit_cases (i := p.1) (page := p.2) hp] at h
    split at h
    · cases h
      exact ⟨rfl, rfl⟩
    · cases h

theorem pageFull_buffer (h : s.composingPage.isSome = true) : s.pageFull.comp.buffer = [] := by
  obtain ⟨⟨i, page⟩, hp⟩ := Option.isSome_iff_exists.1 h
  unfold State.pageFull
  rw [hp]
  rfl

theorem andThen_full {c : Commit} {f : State → Commit} {Q : State → Prop} (hc : ∀ t, c = .full t → Q t) (hf : ∀ u t, f u = .full t → Q t)
    (h : c.andThen f = .full t) : Q t := by
  cases c with
  | placed u => exact hf u t h
  | full u => exact hc t h

theorem commit_full_buffer {l : EndingLine} (h : s.commit l = .full t) : t.comp.buffer = [] := by
  obtain ⟨hp, rfl⟩ := commit_full h
  exact pageFull_buffer hp

theorem breakUpTo_full_buffer {n : Nat} (h : breakUpTo n s = .full t) : t.comp.buffer = [] := by
  induction n generalizing s t with
  | zero => cases h
  | succ n ih =>
    unfold breakUpTo at h
    split at h
    · cases h
    · exact andThen_full (Q := fun t => t.comp.buffer = []) (fun _ => commit_full_buffer) (fun _ _ => ih) h

/-- R68: after an append the buffer has room again, or the Composer is not in a page any more. -/
theorem afterAppend_buffer (s : State) (cls : Nat) :
    (s.afterAppend cls).state.comp.buffer.length < 256 ∨ (s.afterAppend cls).state.composingPage = none := by
  unfold State.afterAppend
  cases hc : (if cls = clsLineBreak then s.commit (breakLine s.comp.buffer) else s.breakTest) with
  | full t =>
    left
    have ht : t.comp.buffer = [] := by
      split at hc
      · exact commit_full_buffer hc
      · exact breakUpTo_full_buffer hc
    show t.comp.buffer.length < 256
    rw [ht]
    decide
  | placed t =>
    show t.bufferFull.state.comp.buffer.length < 256 ∨ t.bufferFull.state.composingPage = none
    unfold State.bufferFull
    split
    · cases hp : t.composingPage with
      | none =>
        rw [commit_none hp]
        exact .inr hp
      | some p =>
        left
        rw [commit_cases (i := p.1) (page := p.2) hp]
        split
        · show t.pageFull.comp.buffer.length < 256
          rw [pageFull_buffer (by rw [hp]; rfl)]
          decide
        · show (t.comp.buffer.drop t.comp.buffer.length).length < 256
          rw [List.drop_length]
          decide
    · next hl => exact .inl (Nat.lt_of_not_le hl)

end Sys2Proof.Machine
end

section
/-! PROOFS. Chapters 4 to 6: the line buffer, the carry and the ordinals of pages. -/

namespace Sys2Proof.Machine

open Sys2Proof

variable {s t : State} {b : Bool} {n : Nat}

/-! ### The laws -/

/-- What ComposerSafe says of the Composer alone, with room for `n` entries in the buffer: within an append it may hold all 256. -/
structure Composer.Laws (n : Nat) (c : Composer) : Prop where
  buffer : c.buffer.length ≤ n
  total : c.buffer.length + c.carry.length ≤ 256
  closed : c.state ≠ .composing → c.buffer = [] ∧ c.nextOrdinal = 0
  idle : c.state = .idle → c.carry = [] ∧ c.para = none
  opening : ∀ k f, c.state = .waitPlane (.opening k f) → c.carry = []
  para : c.para = none → c.buffer = [] ∧ c.carry = []
  frame : c.state.FrameSafe
  indent : c.state.IndentSafe c.para

/-- What it says of a page. -/
structure Held.Composed (c : Composer) (x : Held) : Prop where
  safe : x.page.Safe
  composing : x.part = .composing → x.page.ComposedBy c
  other : x.part ≠ .composing → x.page.placements.length = x.page.glyphCount
  frame : x.page.frame.Safe

structure ComposerLaws (n : Nat) (s : State) : Prop where
  comp : s.comp.Laws n
  pages : s.planes.Each (Held.Composed s.comp)

theorem composerSafe_iff : ComposerSafe s ↔ ComposerLaws 255 s := by
  constructor
  · rintro ⟨h1, h2, h3, h4, h5, h6, h7, h8, ha, hb, hfa, hfb⟩
    refine ⟨⟨Nat.le_of_lt_succ h1, h2, h3, h4, h5, h6, h7, h8⟩, fun i x hx => ?_⟩
    cases i with
    | a => exact ⟨(ha x hx).1, (ha x hx).2.1, (ha x hx).2.2, hfa x hx⟩
    | b => exact ⟨(hb x hx).1, (hb x hx).2.1, (hb x hx).2.2, hfb x hx⟩
  · rintro ⟨⟨h1, h2, h3, h4, h5, h6, h7, h8⟩, h⟩
    exact ⟨Nat.lt_succ_of_le h1, h2, h3, h4, h5, h6, h7, h8, fun x hx => ⟨(h .a x hx).safe, (h .a x hx).composing, (h .a x hx).other⟩,
      fun x hx => ⟨(h .b x hx).safe, (h .b x hx).composing, (h .b x hx).other⟩, fun x hx => (h .a x hx).frame, fun x hx => (h .b x hx).frame⟩

theorem ComposerLaws.congr (h : ComposerLaws n s) (hc : t.comp = s.comp) (hp : t.planes = s.planes) : ComposerLaws n t :=
  ⟨hc ▸ h.comp, by rw [hc, hp]; exact h.pages⟩

/-- A page that is not COMPOSING does not depend on the Composer. -/
theorem Held.Composed.other_of {c c' : Composer} {x : Held} (hx : x.part ≠ .composing) (h : x.Composed c) : x.Composed c' :=
  { h with composing := fun e => absurd e hx }

theorem Held.Composed.congr {c : Composer} {x y : Held} (hpage : x.page = y.page) (hpart : x.part = .composing ↔ y.part = .composing) (h : y.Composed c) :
    x.Composed c :=
  ⟨hpage ▸ h.safe, fun e => hpage ▸ h.composing (hpart.1 e), fun e => hpage ▸ h.other fun e' => e (hpart.2 e'), hpage ▸ h.frame⟩

/-- Planes that hold fewer pages, with the Composer as it was. -/
theorem ComposerLaws.fewer (h : ComposerLaws n s) (hc : t.comp = s.comp) (hp : s.planes.Fewer t.planes) : ComposerLaws n t :=
  ⟨hc ▸ h.comp, by rw [hc]; exact h.pages.fewer hp fun x y hpage hpart => Held.Composed.congr hpage hpart⟩

theorem ComposerLaws.quiet (h : ComposerLaws n s) (hq : Quiet s t) : ComposerLaws n t := h.fewer hq.comp hq.planes

/-- A page of which only the notes change. -/
theorem ComposerLaws.setNotesOf (h : ComposerLaws n s) {part : Part} {i : PlaneId} {page : Page} (hi : s.planes.pageOf part = some (i, page)) (notes : List Note) :
    ComposerLaws n (s.setPlanes (s.planes.setPage i { page with notes })) :=
  ⟨h.comp, h.pages.setPage hi fun hx => ⟨hx.safe, fun e => hx.composing e, hx.other, hx.frame⟩⟩

/-- The page that the Composer builds, and its laws. -/
theorem ComposerLaws.composed (h : ComposerLaws n s) {i : PlaneId} {page : Page} (hp : s.composingPage = some (i, page)) :
    page.Safe ∧ page.ComposedBy s.comp ∧ page.frame.Safe :=
  have hx := h.pages i _ (held_of_pageOf hp)
  ⟨hx.safe, hx.composing rfl, hx.frame⟩

/-! ### Frames and the measure -/

theorem Frame.Safe.width {f : Frame} (h : f.Safe) : 224 ≤ f.width := by
  have := h.1
  simp only [Frame.width, Config.panelWidth]
  omega

theorem ComposerLaws.measure (h : ComposerLaws n s) : 0 ≤ s.measure := by
  unfold State.measure
  split
  · exact Int.le_refl 0
  · next i page hp =>
    obtain ⟨-, ⟨-, -, -, hpara⟩, -⟩ := h.composed hp
    have hindent : s.comp.indent ≤ page.frame.width := by
      unfold Composer.indent
      split
      · next p hp' =>
        have := hpara p hp'
        split <;> omega
      · exact Nat.zero_le _
    exact Int.mul_nonneg (by omega) (by decide)

/-! ### Commits -/

theorem linesCover_append {lines : List Line} {line : Line} {k m : Nat} (h : linesCover k lines m) (hf : line.first = m) (hc : 0 < line.count) :
    linesCover k (lines ++ [line]) (m + line.count) := by
  induction lines generalizing k with
  | nil =>
    have hk : k = m := h
    exact ⟨hf.trans hk.symm, hc, congrArg (· + line.count) hk⟩
  | cons l t ih =>
    obtain ⟨h1, h2, h3⟩ := h
    exact ⟨h1, h2, ih h3⟩

theorem markTrailing_fst {α : Type} (cls : α → Nat) (l : List α) : (markTrailing cls l).map (·.1) = l := by
  induction l with
  | nil => rfl
  | cons x t ih =>
    unfold markTrailing
    split
    · exact congrArg (x :: ·) ih
    · simp only [List.map_map]
      exact List.map_id' _

/-- Marking the hanging entries keeps the entries and their order. -/
theorem markHanging_fst {α : Type} (cls : α → Nat) (l : List α) : (markHanging cls l).map (·.1) = l := by
  unfold markHanging
  split
  · next h => exact (List.reverse_eq_nil_iff.1 h).symm
  · next x t h =>
    have hl : l = (x :: t).reverse := by rw [← h, List.reverse_reverse]
    split
    · rw [List.map_reverse, List.map_cons, markTrailing_fst, hl]
    · rw [List.map_reverse, markTrailing_fst, hl]

theorem markHanging_length {α : Type} (cls : α → Nat) (l : List α) : (markHanging cls l).length = l.length := by
  rw [← List.length_map (·.1), markHanging_fst]

theorem positions_length (p : Spread) (hy : Nat) (first : Bool) (i : Nat) (x0 : Int) (es : List (Entry × Bool)) :
    (positions p hy first i x0 es).length = es.length := by
  induction es generalizing first i x0 with
  | nil => rfl
  | cons e t ih =>
    obtain ⟨e, hangs⟩ := e
    unfold positions
    split
    · exact congrArg (· + 1) (ih ..)
    · exact congrArg (· + 1) (ih ..)

/-- R73: a placement keeps of its entry all but code, column and drawing. -/
theorem placeEntries_map {α : Type} {f : Placement → α} {g : Entry → α}
    (hfg : ∀ (e : Entry) code x drawn, f { ordinal := e.ordinal, code, face := e.face, x, cls := e.cls, shift := e.shift, drawn } = g e)
    (ft : FaceTable) (hyphenated : Bool) {es : List (Entry × Bool)} {xs : List Int} (h : xs.length = es.length) :
    (placeEntries ft hyphenated es xs).map f = es.map fun e => g e.1 := by
  induction es generalizing xs with
  | nil => rfl
  | cons e t ih =>
    cases xs with
    | nil => cases h
    | cons x xs =>
      obtain ⟨e, hangs⟩ := e
      unfold placeEntries
      rw [List.map_cons, List.map_cons, ih (Nat.succ.inj h), hfg]

theorem layOut_map {α : Type} {f : Placement → α} {g : Entry → α}
    (hfg : ∀ (e : Entry) code x drawn, f { ordinal := e.ordinal, code, face := e.face, x, cls := e.cls, shift := e.shift, drawn } = g e)
    (s : State) (page : Page) (l : EndingLine) : (layOut s page l).placements.map f = l.entries.map g := by
  refine (placeEntries_map hfg s.faces l.hyphenated (by rw [List.length_map, positions_length])).trans ?_
  exact (List.map_map (f := Prod.fst) (g := g)).symm.trans (by rw [markHanging_fst])

theorem layOut_ordinals (s : State) (page : Page) (l : EndingLine) :
    (layOut s page l).placements.map (·.ordinal) = l.entries.map (·.ordinal) := layOut_map (fun _ _ _ _ => rfl) s page l

theorem layOut_length (s : State) (page : Page) (l : EndingLine) : (layOut s page l).placements.length = l.entries.length := by
  simpa using congrArg List.length (layOut_ordinals s page l)

theorem commitFails_false {page : Page} {o : LaidOut} (h : commitFails page o = false) : page.lines.length < 160 := by
  unfold commitFails at h
  simp only [Bool.or_eq_false_iff, decide_eq_false_iff_not] at h
  exact Nat.lt_of_not_le h.1

/-- R73: the Composer once a line's entries have left the buffer. -/
def Composer.lineTaken (c : Composer) (count : Nat) : Composer :=
  { c with buffer := c.buffer.drop count, para := c.para.map fun p => { p with firstDone := true } }

/-- R73: a page that a line has joined. -/
def Page.withLine (page : Page) (o : LaidOut) : Page :=
  { page with lines := page.lines ++ [{ o.line with flags := { o.line.flags with overtall := !o.passes } }]
              placements := page.placements ++ o.placements }

theorem placeLine_eq (s : State) (i : PlaneId) (page : Page) (count : Nat) (o : LaidOut) :
    ∃ px, placeLine s i page count o = (s.setComp (s.comp.lineTaken count)).setPlanes ((s.planes.setPage i (page.withLine o)).setPixels i px) :=
  ⟨_, rfl⟩

/-- R73: a line placed carries the ordinals of the page on. -/
theorem ComposerLaws.placeLine (hp : PlaneLaws b s) (h : ComposerLaws n s) {i : PlaneId} {page : Page} (hi : s.composingPage = some (i, page))
    {l : EndingLine} (hl : l.StartsBuffer s) (hc : commitFails page (layOut s page l) = false) :
    ComposerLaws n (placeLine s i page l.entries.length (layOut s page l)) := by
  obtain ⟨⟨hlines, hcount, hcover, hords⟩, ⟨hg, hlen, hbuf, hpara⟩, hframe⟩ := h.composed hi
  obtain ⟨⟨rest, hrest⟩, hne⟩ := hl
  have hlength : s.comp.buffer.length = l.entries.length + rest.length := by rw [← hrest, List.length_append]
  have hpos : 0 < l.entries.length := List.length_pos_iff.2 hne
  have hdrop : s.comp.buffer.drop l.entries.length = rest := by rw [← hrest, List.drop_left]
  rw [← hrest, List.map_append, List.length_append, ← List.range'_append_1] at hbuf
  obtain ⟨hentries, hrestords⟩ := List.append_inj hbuf (by rw [List.length_map, List.length_range'])
  have hfirst : (layOut s page l).line.first = page.placements.length := by
    show ((l.entries.head?).map (·.ordinal)).getD 0 = _
    obtain ⟨e, t, ht⟩ := List.exists_cons_of_ne_nil hne
    rw [ht] at hentries ⊢
    exact (List.cons.inj hentries).1
  have hstate : s.comp.state = .composing := hp.composingPage_isSome.1 (by rw [hi]; rfl)
  obtain ⟨px, he⟩ := placeLine_eq s i page l.entries.length (layOut s page l)
  rw [he]
  refine ⟨?_, Planes.Each.setPixels ?_ i px⟩
  · obtain ⟨h1, h2, h3, h4, h5, h6, h7, h8⟩ := h.comp
    refine ⟨?_, ?_, fun e => absurd hstate e, fun e => ?_, fun k f e => ?_, fun e => ?_, h7, ?_⟩
    · show (s.comp.buffer.drop l.entries.length).length ≤ n
      rw [hdrop]
      omega
    · show (s.comp.buffer.drop l.entries.length).length + s.comp.carry.length ≤ 256
      rw [hdrop]
      omega
    · have e : s.comp.state = .idle := e
      rw [hstate] at e
      cases e
    · have e : s.comp.state = .waitPlane (.opening k f) := e
      rw [hstate] at e
      cases e
    · obtain ⟨hb, -⟩ := h6 (Option.map_eq_none_iff.1 e)
      rw [hb] at hlength
      simp only [List.length_nil] at hlength
      omega
    · show ComposerState.IndentSafe _ s.comp.state
      rw [hstate]
      trivial
  · refine hp.each_setPage hi h.pages (fun x hx hq => hq.other_of hx) ⟨⟨?_, hcount, ?_, ?_⟩, fun _ => ⟨hg, ?_, ?_, ?_⟩,
      fun e => absurd rfl e, hframe⟩
    · have := commitFails_false hc
      simp only [Page.withLine, List.length_append, List.length_singleton]
      omega
    · simp only [Page.withLine]
      rw [List.length_append, layOut_length]
      exact linesCover_append hcover hfirst hpos
    · simp only [Page.withLine, List.map_append, hords, layOut_ordinals, hentries, List.length_append, layOut_length, List.range_eq_range']
      have := List.range'_append_1 (s := 0) (m := page.placements.length) (n := l.entries.length)
      rwa [Nat.zero_add] at this
    · show (page.placements ++ (layOut s page l).placements).length + (s.comp.buffer.drop l.entries.length).length = s.comp.nextOrdinal
      rw [hdrop, List.length_append, layOut_length]
      omega
    · simp only [Page.withLine, Composer.lineTaken, hdrop]
      rw [List.length_append, layOut_length]
      exact hrestords
    · intro p hp'
      obtain ⟨q, hq, rfl⟩ := Option.map_eq_some_iff.1 hp'
      exact hpara q hq

/-- R74: the first ordinal that a full page's buffer carries over. -/
def firstCarried (page : Page) : List Entry → Nat
  | [] => page.glyphCount
  | e :: _ => e.ordinal

/-- R74 and R124: a page that closes full at an ordinal. -/
def Page.closedFull (page : Page) (c : Nat) : Page :=
  { page with glyphCount := c, overflowed := true, faceSet := faceSetOf page.placements, notes := page.notes.filterMap (Note.keptAtFull c) }

/-- R74: the Composer that waits for the continuation of a full page. -/
def Composer.carried (k : Composer) (page : Page) (c : Nat) : Composer :=
  { k with
    state := .waitPlane (.continuation (page.number + 1) page.frame (heldNotes c page.notes))
    buffer := []
    nextOrdinal := 0
    para := k.para.map fun p => { p with firstDone := true }
    carry := k.buffer ++ k.carry }

theorem pageFull_eq {i : PlaneId} {page : Page} (hi : s.composingPage = some (i, page)) :
    s.pageFull = (((s.setPlanes ((s.planes.setPage i (page.closedFull (firstCarried page s.comp.buffer))).setPart i .ready)).setComp
      (s.comp.carried page (firstCarried page s.comp.buffer))).raise .pageReady).raise .pageFull := by
  unfold State.pageFull firstCarried
  rw [hi]
  rfl

/-- R97: the ordinals committed are those below the first carried one. -/
theorem Page.ComposedBy.firstCarried {page : Page} {c : Composer} (h : page.ComposedBy c) : firstCarried page c.buffer = page.placements.length := by
  obtain ⟨hg, hlen, hbuf, -⟩ := h
  cases hb : c.buffer with
  | nil =>
    rw [hb] at hlen
    exact hg.trans hlen.symm
  | cons e t =>
    rw [hb] at hbuf
    exact (List.cons.inj hbuf).1

/-- R74: a full page closes at its first carried ordinal, and the buffer goes to the carry. -/
theorem ComposerLaws.pageFull {m : Nat} (hp : PlaneLaws b s) (h : ComposerLaws n s) (hs : s.comp.state = .composing) : ComposerLaws m s.pageFull := by
  obtain ⟨⟨i, page⟩, hi⟩ := Option.isSome_iff_exists.1 (hp.composingPage_isSome.2 hs)
  obtain ⟨⟨hlines, hcount, hcover, hords⟩, hcby, hframe⟩ := h.composed hi
  have ⟨hg, hlen, hbuf, hpara⟩ := hcby
  rw [pageFull_eq hi, hcby.firstCarried]
  refine ⟨⟨Nat.zero_le _, ?_, fun _ => ⟨rfl, rfl⟩, fun e => (by cases e), fun k f e => (by cases e), fun e => ?_, hframe, ?_⟩, ?_⟩
  · show 0 + (s.comp.buffer ++ s.comp.carry).length ≤ 256
    rw [Nat.zero_add, List.length_append]
    exact h.comp.total
  · obtain ⟨h1, h2⟩ := h.comp.para (Option.map_eq_none_iff.1 e)
    exact ⟨rfl, by show s.comp.buffer ++ s.comp.carry = []; rw [h1, h2]; rfl⟩
  · intro p hp'
    obtain ⟨q, hq, rfl⟩ := Option.map_eq_some_iff.1 hp'
    exact hpara q hq
  · exact hp.each_ready hi h.pages (fun x hx hq => hq.other_of hx)
      ⟨⟨hlines, by show page.placements.length ≤ 8192; omega, hcover, hords⟩, fun e => (by cases e), fun _ => rfl, hframe⟩

theorem ComposerLaws.commit (hp : PlaneLaws b s) (h : ComposerLaws n s) {l : EndingLine} (hl : l.StartsBuffer s) : ComposerLaws n (s.commit l).state := by
  cases hi : s.composingPage with
  | none =>
    rw [commit_none hi]
    exact h
  | some p =>
    rw [commit_cases (i := p.1) (page := p.2) hi]
    split
    · exact h.pageFull hp (hp.composingPage_isSome.1 (by rw [hi]; rfl))
    · next hc => exact h.placeLine hp hi hl (by simpa using hc)

theorem ComposerLaws.commit_both (h : PlaneLaws b s ∧ ComposerLaws n s) {l : EndingLine} (hl : l.StartsBuffer s) :
    PlaneLaws b (s.commit l).state ∧ ComposerLaws n (s.commit l).state := ⟨h.1.commit l, h.2.commit h.1 hl⟩

theorem ComposerLaws.breakTest (hp : PlaneLaws b s) (h : ComposerLaws n s) : PlaneLaws b s.breakTest.state ∧ ComposerLaws n s.breakTest.state :=
  breakTest_keeps_starting (P := fun u => PlaneLaws b u ∧ ComposerLaws n u) (fun _ _ hu hl => ComposerLaws.commit_both hu hl) (fun _ hu => hu.2.measure)
    ⟨hp, h⟩

/-! ### Appends -/

/-- R59: the Composer once an entry has joined its buffer. -/
def Composer.joined (c : Composer) (e : Entry) : Composer := { c.withPara with buffer := c.buffer ++ [e], nextOrdinal := c.nextOrdinal + 1 }

/-- R59: the page, with the entry counted and its face in the face set. -/
def Page.joined (page : Page) (e : Entry) : Page :=
  { page with glyphCount := e.ordinal + 1, faceSet := if e.face = 0 then page.faceSet else insertNat e.face page.faceSet }

/-- R59: an entry takes the next ordinal and its kern adjustment. -/
def State.stamped (s : State) (e : Entry) : Entry := { e with ordinal := s.comp.nextOrdinal, kern := s.kernFor e }

theorem withPara_eq (c : Composer) : ∃ p, c.withPara = { c with para := some p } ∧ (c.para = some p ∨ p.indent = 0) := by
  unfold Composer.withPara
  split
  · next p hp => exact ⟨p, by rw [← hp], .inl hp⟩
  · exact ⟨_, rfl, .inr rfl⟩

theorem join_eq_of {i : PlaneId} {page : Page} (hi : s.composingPage = some (i, page)) (e : Entry) :
    s.join e = (s.setComp (s.comp.joined (s.stamped e))).setPlanes (s.planes.setPage i (page.joined (s.stamped e))) := by
  obtain ⟨p, hp, -⟩ := withPara_eq s.comp
  simp only [State.join, State.mapComposingPage, Composer.joined, State.stamped, hp]
  rw [show (s.setComp { s.comp with
      buffer := s.comp.buffer ++ [{ e with ordinal := s.comp.nextOrdinal, kern := s.kernFor e }]
      nextOrdinal := s.comp.nextOrdinal + 1
      para := some p }).composingPage = some (i, page) from hi]
  rfl

theorem join_buffer (e : Entry) : (s.join e).comp.buffer ≠ [] := by
  have h : (s.join e).comp.buffer = s.comp.withPara.buffer ++ [{ e with ordinal := s.comp.withPara.nextOrdinal, kern := s.kernFor e }] := by
    unfold State.join State.mapComposingPage
    dsimp only
    split <;> rfl
  rw [h]
  exact List.append_ne_nil_of_right_ne_nil _ (List.cons_ne_nil _ _)

/-- R59: an entry joins a buffer that has room for it. -/
theorem ComposerLaws.join (hp : PlaneLaws b s) (h : ComposerLaws n s) (hs : s.comp.state = .composing) (ho : s.comp.nextOrdinal < 8192)
    (hc : s.comp.buffer.length + s.comp.carry.length < 256) (e : Entry) : ComposerLaws (n + 1) (s.join e) := by
  obtain ⟨⟨i, page⟩, hi⟩ := Option.isSome_iff_exists.1 (hp.composingPage_isSome.2 hs)
  obtain ⟨⟨hlines, hcount, hcover, hords⟩, ⟨hg, hlen, hbuf, hpara⟩, hframe⟩ := h.composed hi
  obtain ⟨p, hwith, hindent⟩ := withPara_eq s.comp
  have hjoined : s.comp.joined (s.stamped e) =
      { s.comp with para := some p, buffer := s.comp.buffer ++ [s.stamped e], nextOrdinal := s.comp.nextOrdinal + 1 } := by
    rw [Composer.joined, hwith]
  have hbound : p.indent + 64 ≤ page.frame.width := by
    rcases hindent with hindent | hindent
    · exact hpara p hindent
    · have := hframe.width
      omega
  rw [join_eq_of hi, hjoined]
  refine ⟨⟨?_, ?_, fun e => absurd hs e, fun e => ?_, fun k f e => ?_, fun e => (by cases e), h.comp.frame, ?_⟩,
    hp.each_setPage hi h.pages (fun x hx hq => hq.other_of hx)
      ⟨⟨hlines, ho, hcover, hords⟩, fun _ => ⟨rfl, ?_, ?_, fun q hq => ?_⟩, fun e => absurd rfl e, hframe⟩⟩
  · show (s.comp.buffer ++ [s.stamped e]).length ≤ n + 1
    rw [List.length_append, List.length_singleton]
    exact Nat.succ_le_succ h.comp.buffer
  · show (s.comp.buffer ++ [s.stamped e]).length + s.comp.carry.length ≤ 256
    rw [List.length_append, List.length_singleton]
    omega
  · have e : s.comp.state = .idle := e
    rw [hs] at e
    cases e
  · have e : s.comp.state = .waitPlane (.opening k f) := e
    rw [hs] at e
    cases e
  · show ComposerState.IndentSafe _ s.comp.state
    rw [hs]
    trivial
  · show page.placements.length + (s.comp.buffer ++ [s.stamped e]).length = s.comp.nextOrdinal + 1
    rw [List.length_append, List.length_singleton]
    omega
  · show (s.comp.buffer ++ [s.stamped e]).map (·.ordinal) = List.range' page.placements.length (s.comp.buffer ++ [s.stamped e]).length
    rw [List.map_append, hbuf, List.length_append, List.length_singleton, List.range'_concat, Nat.one_mul, hlen]
    rfl
  · cases hq
    exact hbound

/-- R59 and R68: an append leaves the buffer with room. -/
theorem ComposerLaws.append (hp : PlaneLaws b s) (h : ComposerLaws 255 s) (hs : s.comp.state = .composing) (ho : s.comp.nextOrdinal < 8192)
    (hc : s.comp.buffer.length + s.comp.carry.length < 256) (e : Entry) (cls : Nat) : ComposerLaws 255 ((s.join e).afterAppend cls).state := by
  obtain ⟨hpu, hu⟩ := afterAppend_keeps_starting (P := fun u => PlaneLaws b u ∧ ComposerLaws 256 u) (fun _ _ hu hl => ComposerLaws.commit_both hu hl)
    (fun _ hu => hu.2.measure) cls (join_buffer e) ⟨hp.join e, h.join hp hs ho hc e⟩
  refine ⟨{ hu.comp with buffer := ?_ }, hu.pages⟩
  rcases afterAppend_buffer (s.join e) cls with hlt | hnone
  · exact Nat.le_of_lt_succ hlt
  · rw [(hu.comp.closed (hpu.composingPage_none.1 hnone)).1]
    exact Nat.zero_le _

/-! ### Ends of paragraphs and pages -/

/-- R71: a paragraph's end leaves no buffer; without a carry the paragraph record may be absent. -/
theorem ComposerLaws.endParagraph (hp : PlaneLaws b s) (h : ComposerLaws n s) (hs : s.comp.state = .composing) (hc : s.comp.carry = []) :
    ComposerLaws n s.endParagraph.state := by
  have hdone {u : State} (hu : ComposerLaws n u) (hb : u.comp.buffer = []) (hcu : u.comp.carry = []) (hsu : u.comp.state = .composing) :
      ComposerLaws n (u.setComp { u.comp with para := none }) := by
    obtain ⟨h1, h2, h3, h4, h5, h6, h7, h8⟩ := hu.comp
    refine ⟨⟨h1, h2, h3, fun e => ⟨hcu, rfl⟩, h5, fun _ => ⟨hb, hcu⟩, h7, ?_⟩, hu.pages.mono fun x hx => ⟨hx.safe, fun e => ?_, hx.other, hx.frame⟩⟩
    · show ComposerState.IndentSafe none u.comp.state
      rw [hsu]
      trivial
    · obtain ⟨c1, c2, c3, -⟩ := hx.composing e
      exact ⟨c1, c2, c3, fun p hp => by cases hp⟩
  obtain ⟨⟨i, page⟩, hi⟩ := Option.isSome_iff_exists.1 (hp.composingPage_isSome.2 hs)
  unfold State.endParagraph
  dsimp only
  split
  · next hb => exact hdone h (List.isEmpty_iff.1 hb) hc hs
  · next hb =>
    have hl : (lastLine s.comp.buffer).StartsBuffer s := ⟨List.prefix_rfl, fun e => hb (List.isEmpty_iff.2 e)⟩
    have hcommit := h.commit hp hl
    rw [commit_cases hi] at hcommit ⊢
    split
    · next hf =>
      rw [if_pos hf] at hcommit
      exact hcommit
    · next hf =>
      rw [if_neg hf] at hcommit
      exact hdone hcommit (List.drop_length) hc hs

theorem Composer.laws_emptied {c : Composer} (hc : c.carry = []) {x : ComposerState} (hx : x.FrameSafe) (hi : x.IndentSafe none) :
    Composer.Laws n { c with state := x, buffer := [], nextOrdinal := 0, para := none } :=
  ⟨Nat.zero_le _, by show 0 + c.carry.length ≤ 256; rw [hc]; decide, fun _ => ⟨rfl, rfl⟩, fun _ => ⟨hc, rfl⟩, fun _ _ _ => hc, fun _ => ⟨rfl, hc⟩, hx, hi⟩

/-- R103: a page closes with an empty buffer. -/
theorem ComposerLaws.closePage (hp : PlaneLaws b s) (h : ComposerLaws n s) (hc : s.comp.carry = []) (hb : s.composingPage.isSome = true → s.comp.buffer = []) :
    ComposerLaws n s.closePage := by
  unfold State.closePage
  split
  · exact h
  · next i page hi =>
    obtain ⟨hsafe, ⟨hg, hlen, -, -⟩, hframe⟩ := h.composed hi
    rw [hb (by rw [hi]; rfl)] at hlen
    exact ⟨Composer.laws_emptied hc trivial trivial, hp.each_ready hi h.pages (fun x hx hq => hq.other_of hx)
      ⟨hsafe, fun e => (by cases e), fun _ => hlen.trans hg.symm, hframe⟩⟩

/-! ### Opening a page -/

theorem Page.fresh_safe (number : PageNumber) (frame : Frame) (cont : Bool) (notes : List Note) : (Page.fresh number frame cont notes).Safe :=
  ⟨Nat.zero_le _, Nat.zero_le _, rfl, rfl⟩

theorem ComposerLaws.openPage (h : ComposerLaws n s) {i : PlaneId} (hi : s.planes.available = some i) (number : PageNumber) {frame : Frame}
    (hf : frame.Safe) (hc : s.comp.carry = []) : ComposerLaws n (s.openPage i number frame) :=
  ⟨Composer.laws_emptied hc trivial trivial, h.pages.openOn hi (fun x hx hq => hq.other_of hx)
    ⟨Page.fresh_safe .., fun _ => ⟨rfl, rfl, rfl, fun p hp => (by cases hp)⟩, fun e => absurd rfl e, hf⟩⟩

theorem ComposerLaws.openContinuation (h : ComposerLaws n s) {i : PlaneId} (hi : s.planes.available = some i) {number : PageNumber} {frame : Frame}
    {notes : List Note} (hs : s.comp.state = .waitPlane (.continuation number frame notes)) :
    ComposerLaws n (s.openContinuation i number frame notes) := by
  obtain ⟨h1, h2, h3, h4, h5, h6, h7, h8⟩ := h.comp
  obtain ⟨hb, ho⟩ := h3 (by rw [hs]; exact fun e => by cases e)
  rw [hs] at h7 h8
  refine ⟨⟨h1, h2, fun e => absurd rfl e, fun e => (by cases e), fun k f e => (by cases e), h6, trivial, trivial⟩,
    h.pages.openOn hi (fun x hx hq => hq.other_of hx)
      ⟨Page.fresh_safe .., fun _ => ⟨rfl, ?_, ?_, h8⟩, fun e => absurd rfl e, h7⟩⟩
  · show 0 + s.comp.buffer.length = 0
    rw [hb]
    rfl
  · show s.comp.buffer.map (·.ordinal) = List.range' 0 s.comp.buffer.length
    rw [hb]
    rfl

theorem ComposerLaws.grant (h : ComposerLaws n s) : ComposerLaws n s.grant := by
  unfold State.grant
  split
  · exact h
  · split
    · next number frame i hs hi =>
      have hf := h.comp.frame
      rw [hs] at hf
      exact ComposerLaws.congr (h.openPage hi number hf (h.comp.opening _ _ hs)) rfl rfl
    · next hs hi => exact h.openContinuation hi hs
    · exact h

/-! ### The end of the stream -/

theorem Composer.reset_laws (n : Nat) : Composer.reset.Laws n :=
  ⟨Nat.zero_le _, Nat.zero_le _, fun _ => ⟨rfl, rfl⟩, fun _ => ⟨rfl, rfl⟩, fun _ _ _ => rfl, fun _ => ⟨rfl, rfl⟩, trivial, trivial⟩

theorem PlaneLaws.not_composing_of_dropped (hp : PlaneLaws b s) {i : PlaneId} {x : Held} (hx : s.planes.dropComposing.held i = some x) : x.part ≠ .composing := by
  intro e
  have hpart : s.planes.dropComposing.part i = some .composing := Planes.part_eq_some.2 ⟨x.page, by rw [hx, ← e]⟩
  rw [show s.planes.dropComposing = s.planes.freePart .composing from rfl, Planes.part_freePart hp.pair] at hpart
  split at hpart
  · cases hpart
  · contradiction

/-- R57 and R114: the Composer is as after power-on, and no page is COMPOSING. -/
theorem ComposerLaws.streamReset (h : ComposerLaws n s) (hp : PlaneLaws b s) (hc : t.comp = Composer.reset) (hplanes : t.planes = s.planes.dropComposing) :
    ComposerLaws n t := by
  refine ⟨hc ▸ Composer.reset_laws n, fun i x hx => ?_⟩
  rw [hplanes] at hx
  exact (h.pages.fewer (Planes.fewer_dropComposing _) (fun x y hpage hpart => Held.Composed.congr hpage hpart) i x hx).other_of
    (hp.not_composing_of_dropped hx)

/-! ### The moves -/

theorem ComposerLaws.setComp (h : ComposerLaws n s) {c : Composer} (hc : c.Laws n) (hb : c.buffer = s.comp.buffer) (ho : c.nextOrdinal = s.comp.nextOrdinal)
    (hi : ∀ i page, s.composingPage = some (i, page) → ∀ p, c.para = some p → p.indent + 64 ≤ page.frame.width) (hp : PlaneLaws b s) :
    ComposerLaws n (s.setComp c) := by
  refine ⟨hc, fun i x hx => ?_⟩
  have hq := h.pages i x hx
  refine ⟨hq.safe, fun e => ?_, hq.other, hq.frame⟩
  obtain ⟨c1, c2, c3, -⟩ := hq.composing e
  refine ⟨c1.trans ho.symm, ?_, ?_, hi i x.page (hp.pageOf_iff.2 (by rw [← e]; exact hx))⟩
  · rw [show (s.setComp c).comp = c from rfl, hb, ho]
    exact c2
  · rw [show (s.setComp c).comp = c from rfl, hb]
    exact c3

/-- R76: the oldest carried entry leaves the carry, and the buffer has room for it. -/
theorem ComposerLaws.takeCarry (h : ComposerLaws n s) (hp : PlaneLaws b s) (hs : s.comp.state = .composing) {e : Entry} {rest : List Entry}
    (hc : s.comp.carry = e :: rest) : ComposerLaws n (s.setComp { s.comp with carry := rest }) ∧ s.comp.buffer.length + rest.length < 256 := by
  obtain ⟨h1, h2, h3, h4, h5, h6, h7, h8⟩ := h.comp
  rw [hc, List.length_cons] at h2
  have hpara : s.comp.para ≠ none := fun e => by
    have := (h6 e).2
    rw [hc] at this
    cases this
  refine ⟨h.setComp ⟨h1, Nat.le_of_succ_le h2, h3, fun e => ?_, fun k f e => ?_, fun e => absurd e hpara, h7, h8⟩ rfl rfl
    (fun i page hi => (h.composed hi).2.1.2.2.2) hp, h2⟩
  · rw [show s.comp.state = .idle from e] at hs
    cases hs
  · rw [show s.comp.state = .waitPlane (.opening k f) from e] at hs
    cases hs

theorem ComposerLaws.move {o : Origin} (m : Move o s t) (hp : PlaneLaws b s) (h : ComposerLaws 255 s) : ComposerLaws 255 t := by
  have hpara (i : PlaneId) (page : Page) (hi : s.composingPage = some (i, page)) := (h.composed hi).2.1.2.2.2
  cases m with
  | appendNew code cls hs hc ho =>
    refine h.append hp hs ho ?_ _ cls
    rw [hc]
    exact Nat.lt_succ_of_le h.comp.buffer
  | reappend e rest hs hc ho =>
    obtain ⟨hu, hroom⟩ := h.takeCarry hp hs hc
    exact hu.append (hp.setComp (c := { s.comp with carry := rest }) rfl) hs ho hroom e e.cls
  | place index applied => exact h.setComp ⟨h.comp.1, h.comp.2, h.comp.3, h.comp.4, h.comp.5, h.comp.6, h.comp.7, h.comp.8⟩ rfl rfl hpara hp
  | pageFull hs => exact h.pageFull hp hs
  | breakTest => exact (h.breakTest hp).2
  | endParagraph hs hc => exact h.endParagraph hp hs hc
  | openParagraph p hs hpw =>
    obtain ⟨h1, h2, h3, h4, h5, h6, h7, h8⟩ := h.comp
    refine h.setComp ⟨h1, h2, h3, fun e => ?_, h5, fun e => (by cases e), h7, ?_⟩ rfl rfl (fun i page hi q hq => ?_) hp
    · rw [show s.comp.state = .idle from e] at hs
      cases hs
    · show ComposerState.IndentSafe _ s.comp.state
      rw [hs]
      trivial
    · cases hq
      rw [hi] at hpw
      have := (h.composed hi).2.2.width
      dsimp only at hpw
      omega
  | closePage hc hb => exact h.closePage hp hc hb
  | openPage i number frame hf hi _ _ hc => exact h.openPage hi number hf hc
  | awaitPlane number frame hf hw hn hc =>
    obtain ⟨h1, h2, h3, h4, h5, h6, h7, h8⟩ := h.comp
    have hnc : s.comp.state ≠ .composing := fun e => hp.composingPage_none.1 (hn e) e
    refine h.setComp ⟨h1, h2, fun _ => h3 hnc, fun e => (by cases e), fun _ _ _ => hc, h6, hf, trivial⟩ rfl rfl hpara hp
  | grant => exact h.grant
  | freeReady i => exact h.quiet (quiet_setPlanes (Planes.fewer_free _ _))
  | showReady i hi => exact h.quiet (showReady_quiet hi)
  | streamReset => exact h.streamReset hp rfl rfl
  | openNote i page n tone hs hi =>
    exact (h.setNotesOf hi (insertNote n page.notes)).congr rfl rfl
  | paintNote r i page style hi => exact h.setNotesOf hi _
  | eraseNote id i page hi => exact h.setNotesOf hi _
  | closeNote id hs hid =>
    unfold State.mapComposingPage
    split
    · exact h.congr rfl rfl
    · next i page hi => exact ComposerLaws.congr (h.setNotesOf hi (Machine.closeNote s.comp.nextOrdinal id page.notes)) rfl rfl
  | drawHeld x => exact h.quiet (drawHeld_quiet s x)
  | drawTested x => exact h.quiet (drawTested_quiet s x)
  | queueHold => exact h.quiet (queueHold_quiet s)
  | dispatch _ _ hd => exact h.quiet (dispatchAbove_quiet hd)
  | finish i => exact h.quiet (finish_quiet s i)
  | timeout i => exact h.quiet (timeout_quiet s i)
  | abort => exact h.quiet (abort_quiet s)
  | beginTable | faultTable | defineGlyph | endTable | dropTable =>
    rw [setTable_eq]
    exact h.congr rfl rfl
  | _ => exact h.congr rfl rfl

/-- The planes and the Composer after power-on. -/
theorem ComposerLaws.reset (h : execPowerOnReset s = .next t) : ComposerLaws n t := by
  cases h
  refine ⟨Composer.reset_laws n, fun i x hx => ?_⟩
  cases i <;> cases hx

/-- A property that holds together with the laws of planes and Composer is kept by every step, if every move from states with those laws keeps it. -/
theorem step_keeps_composed {P : State → Prop} (hmove : ∀ o s t, Move o s t → PlaneLaws false s → ComposerLaws 255 s → P s → P t)
    (hpending : ∀ s x, P s → P (s.setPending x)) (hreset : ∀ s t, execPowerOnReset s = .next t → P s → P t)
    (hsend : ∀ s i, PlaneLaws false s → P s → P (s.sendEnded i)) (hfeed : ∀ s, P s → P (s.setLanes s.lanes.feed))
    (hs : PlaneSafe s ∧ ComposerSafe s ∧ P s) (h : step s = .next t) : ComposerSafe t ∧ P t := by
  rw [planeSafe_iff, composerSafe_iff] at hs
  have hkept := step_keeps (P := fun u => PlaneLaws false u ∧ ComposerLaws 255 u ∧ P u)
    (fun o u v m hu => ⟨hu.1.move m, hu.2.1.move m hu.1, hmove o u v m hu.1 hu.2.1 hu.2.2⟩)
    (fun u x hu => ⟨hu.1.congr rfl rfl rfl rfl rfl rfl, hu.2.1.congr rfl rfl, hpending u x hu.2.2⟩)
    (fun u v hu hr => ⟨(PlaneLaws.reset hr).untested, .reset hr, hreset u v hr hu.2.2⟩)
    (fun u i hu _ => ⟨hu.1.sendEnded_untested i, hu.2.1.quiet (sendEnded_quiet u i), hsend u i hu.1 hu.2.2⟩)
    (fun u hu => ⟨hu.1.sameLane (LaneController.feed_lane _), hu.2.1.congr rfl rfl, hfeed u hu.2.2⟩) ⟨hs.1.untested, hs.2.1, hs.2.2⟩ h
  exact ⟨composerSafe_iff.2 hkept.2.1, hkept.2.2⟩

end Sys2Proof.Machine
end

section

open Sys2Proof Sys2Proof.Machine

/-- Settles O55: an append joins the next ordinal to the buffer's, a line takes its ordinals from the buffer's front, and a full page carries the rest. -/
theorem stepKeepsComposerSafe : Obligations.StepKeepsComposerSafe := fun _ _ hp hc hstep =>
  (step_keeps_composed (P := fun _ => True) (fun _ _ _ _ _ _ _ => trivial) (fun _ _ _ => trivial) (fun _ _ _ _ => trivial) (fun _ _ _ _ => trivial)
    (fun _ _ => trivial) ⟨hp, hc, trivial⟩ hstep).1

end

section
/-! PROOFS. Chapter 8: the canonical form of both planes' pixels. -/

namespace Sys2Proof.Machine

open Sys2Proof

variable {s t : State} {p : Planes} {i : PlaneId}

/-- Pixels in canonical form, beside pages whose frames are clamped: all that drawing needs. -/
structure Planes.Drawn (p : Planes) : Prop where
  pixels : ∀ i, (p.get i).pixels.wf
  frames : p.Each fun x => x.page.frame.Safe

theorem Planes.Drawn.set (h : p.Drawn) {x : Plane} (hp : x.pixels.wf) (hx : ∀ y, x.held = some y → y.page.frame.Safe) : (p.set i x).Drawn := by
  refine ⟨fun j => ?_, fun j y hy => ?_⟩
  · rw [Planes.get_set_eq]
    split
    · exact hp
    · exact h.pixels j
  · rw [Planes.held_set] at hy
    split at hy
    · exact hx y hy
    · exact h.frames j y hy

/-- A page replaced by one with its frame. -/
theorem Planes.Drawn.setPage (h : p.Drawn) {page page' : Page} (hf : page.frame.Safe) (he : page'.frame = page.frame) : (p.setPage i page').Drawn :=
  h.set (h.pixels i) fun y hy => by
    obtain ⟨x, -, rfl⟩ := Option.map_eq_some_iff.1 hy
    exact he ▸ hf

theorem Planes.Drawn.setPart (h : p.Drawn) (x : Part) : (p.setPart i x).Drawn :=
  h.set (h.pixels i) fun y hy => by
    obtain ⟨z, hz, rfl⟩ := Option.map_eq_some_iff.1 hy
    exact h.frames i z hz

theorem Planes.Drawn.setPixels (h : p.Drawn) {x : Pixels} (hx : x.wf) : (p.setPixels i x).Drawn := h.set hx (h.frames i)

theorem Planes.Drawn.free (h : p.Drawn) : (p.free i).Drawn := h.set (h.pixels i) fun y hy => by cases hy

theorem Planes.Drawn.openOn (h : p.Drawn) {page : Page} (hf : page.frame.Safe) : (p.openOn i page).Drawn :=
  h.set ⟨List.Pairwise.nil, fun _ hx => by cases hx⟩ fun y hy => by
    cases hy
    exact hf

theorem Planes.Drawn.freePart (h : p.Drawn) (x : Part) : (p.freePart x).Drawn := by
  unfold Planes.freePart
  split
  · exact h
  · exact h.free

/-- What the show report holds is not drawn. -/
theorem Planes.Drawn.report (h : p.Drawn) (x : Bool) (w : List (Fin 4)) : Planes.Drawn { p with showPending := x, showing := w } :=
  ⟨fun i => by cases i; exacts [h.pixels .a, h.pixels .b], fun i y hy => h.frames i y ((held_report ..).symm.trans hy)⟩

theorem Planes.Drawn.flip (h : p.Drawn) (l : LaneController) : (flipPlanes p l i).Drawn := by
  unfold flipPlanes
  dsimp only
  refine Planes.Drawn.report (Planes.Drawn.setPart ?_ .shown) true []
  split
  · exact h
  · split
    · exact h.setPart .retiring
    · exact h.free

/-! ### Drawing a line -/

theorem drawLine_wf (s : State) {page : Page} (hp : page.frame.left ≤ Config.maxSideMargins) (l : Line) {px : Pixels} (h : px.wf) :
    (drawLine s page px l).wf := by
  exact foldl_wf (fun px h n => drawBar_wf page hp l h n) _ (foldl_wf (fun px h n => drawUnderline_wf l _ h n) _
    (foldl_wf (fun px h p => drawGlyph_wf s l h p) _ (foldl_wf (fun px h n => drawShade_wf s l _ h n) _ (Pixels.clearRows_wf h _ _))))

/-! ### The laws -/

structure PixelLaws (s : State) : Prop where
  planes : s.planes.Drawn
  pending : s.comp.state.FrameSafe

theorem PixelLaws.of_safe (hc : ComposerSafe s) (hp : PixelSafe s) : PixelLaws s := by
  rw [composerSafe_iff] at hc
  exact ⟨⟨fun i => by cases i; exacts [hp.1, hp.2], hc.pages.mono fun _ hx => hx.frame⟩, hc.comp.frame⟩

theorem PixelLaws.pixelSafe (h : PixelLaws s) : PixelSafe s := ⟨h.planes.pixels .a, h.planes.pixels .b⟩

theorem PixelLaws.congr (h : PixelLaws s) (hp : t.planes = s.planes) (hc : t.comp.state = s.comp.state) : PixelLaws t :=
  ⟨hp ▸ h.planes, hc ▸ h.pending⟩

theorem PixelLaws.frame (h : PixelLaws s) {x : Part} {page : Page} (hp : s.planes.pageOf x = some (i, page)) : page.frame.Safe :=
  h.planes.frames i _ (held_of_pageOf hp)

theorem Frame.Safe.left_le {f : Frame} (h : f.Safe) : f.left ≤ Config.maxSideMargins := by
  have := h.1
  show f.left ≤ 1456
  omega

theorem PixelLaws.pageFull (h : PixelLaws s) : PixelLaws s.pageFull := by
  cases hi : s.composingPage with
  | none =>
    unfold State.pageFull
    rw [hi]
    exact h
  | some p =>
    rw [pageFull_eq (i := p.1) (page := p.2) hi]
    exact ⟨(h.planes.setPage (h.frame hi) (by rfl)).setPart _, h.frame hi⟩

theorem PixelLaws.commit (h : PixelLaws s) (l : EndingLine) : PixelLaws (s.commit l).state := by
  refine commit_keeps (fun u hu => hu.pageFull) (fun u i page n o hi hu => ?_) l h
  have hf := hu.frame hi
  exact ⟨(hu.planes.setPage hf (by rfl)).setPixels (drawLine_wf _ (page := page.withLine o) hf.left_le _ (hu.planes.pixels i)), hu.pending⟩

theorem PixelLaws.mapComposingPage (h : PixelLaws s) {f : Page → Page} (hf : ∀ page, (f page).frame = page.frame) : PixelLaws (s.mapComposingPage f) := by
  unfold State.mapComposingPage
  split
  · exact h
  · next i page hi => exact ⟨h.planes.setPage (h.frame hi) (hf page), h.pending⟩

theorem PixelLaws.join (h : PixelLaws s) (e : Entry) : PixelLaws (s.join e) := by
  unfold State.join
  exact PixelLaws.mapComposingPage (h.congr (by rfl) (by exact withPara_state s.comp)) fun _ => (by rfl)

theorem PixelLaws.closePage (h : PixelLaws s) : PixelLaws s.closePage := by
  unfold State.closePage
  split
  · exact h
  · next i page hi => exact ⟨(h.planes.setPage (h.frame hi) (by rfl)).setPart _, trivial⟩

theorem PixelLaws.grant (h : PixelLaws s) : PixelLaws s.grant := by
  have hp := h.pending
  unfold State.grant
  split
  · exact h
  · split
    · next hs _ =>
      rw [hs] at hp
      exact ⟨h.planes.openOn hp, trivial⟩
    · next hs _ =>
      rw [hs] at hp
      exact ⟨h.planes.openOn hp, trivial⟩
    · exact h

theorem PixelLaws.redraw (h : PixelLaws s) (lines : List Nat) : PixelLaws (s.redraw lines) := by
  unfold State.redraw
  split
  · exact h
  · next i page hi =>
    exact ⟨h.planes.setPixels (foldl_wf (fun px hpx l => drawLine_wf s (h.frame hi).left_le l hpx) _ (h.planes.pixels i)), h.pending⟩

theorem PixelLaws.drawHeld (h : PixelLaws s) (x : HeldPaint) : PixelLaws (s.drawHeld x) := by
  obtain ⟨q, n, hq⟩ := holdTiles_frame (s.redraw x.lines) x.tiles
  rw [State.drawHeld, hq]
  exact (h.redraw x.lines).congr rfl rfl

theorem PixelLaws.move {o : Origin} (m : Move o s t) (h : PixelLaws s) : PixelLaws t := by
  have hcommit (u : State) (l : EndingLine) (hu : PixelLaws u) : PixelLaws (u.commit l).state := hu.commit l
  cases m with
  | appendNew code cls => exact afterAppend_keeps hcommit cls (h.join _)
  | reappend e rest => exact afterAppend_keeps hcommit e.cls (PixelLaws.join (s := s.setComp { s.comp with carry := rest }) (h.congr rfl rfl) e)
  | pageFull => exact h.pageFull
  | breakTest => exact breakTest_keeps hcommit h
  | endParagraph => exact endParagraph_keeps hcommit (fun u hu => hu.congr rfl rfl) h
  | closePage => exact h.closePage
  | openPage i number frame hf => exact ⟨h.planes.openOn hf, trivial⟩
  | awaitPlane number frame hf => exact ⟨h.planes, hf⟩
  | grant => exact h.grant
  | freeReady => exact ⟨h.planes.free, h.pending⟩
  | showReady i hi => exact ⟨by rw [showReady_planes]; exact h.planes.flip _, by rw [(showReady_quiet hi).comp]; exact h.pending⟩
  | streamReset => exact ⟨h.planes.freePart .composing, trivial⟩
  | openNote i page n tone hs hi => exact ⟨h.planes.setPage (h.frame hi) (by rfl), h.pending⟩
  | paintNote r i page style hi => exact ⟨h.planes.setPage (h.frame hi) (by rfl), h.pending⟩
  | eraseNote id i page hi => exact ⟨h.planes.setPage (h.frame hi) (by rfl), h.pending⟩
  | closeNote id => 
    exact PixelLaws.congr (h.mapComposingPage (f := fun page => { page with notes := Machine.closeNote s.comp.nextOrdinal id page.notes }) fun _ => rfl) rfl rfl
  | drawHeld x => exact h.drawHeld x
  | drawTested x => exact PixelLaws.drawHeld (s := s.setCmd { s.cmd with executing := none }) (h.congr rfl rfl) x
  | queueHold =>
    obtain ⟨q, hq⟩ := queueHold_frame s
    rw [hq]
    exact h.congr rfl rfl
  | dispatch _ _ hd =>
    obtain ⟨k, plane, r, i, -, -, -, rfl⟩ := dispatchAbove_eq_some hd
    obtain ⟨w, hw⟩ := noteDispatch_frame s.planes k i.source
    exact ⟨by rw [hw]; exact h.planes.report _ _, h.pending⟩
  | finish i =>
    refine ⟨?_, h.pending⟩
    rw [State.setLanes_planes, State.setPlanes_planes]
    split
    · exact h.planes.report _ _
    · exact h.planes
  | timeout i => exact ⟨h.planes.report _ _, h.pending⟩
  | abort => exact ⟨(h.planes.report _ _).freePart _, h.pending⟩
  | beginTable | faultTable | defineGlyph | endTable | dropTable =>
    rw [setTable_eq]
    exact h.congr rfl rfl
  | _ => exact h.congr rfl rfl

end Sys2Proof.Machine
end

section

open Sys2Proof Sys2Proof.Machine

/-- Settles O56: every drawing step keeps the canonical form on a page whose frame is clamped, as every page's and pending page's is. -/
theorem stepKeepsPixelSafe : Obligations.StepKeepsPixelSafe := by
  intro s t hc hp hstep
  refine (step_keeps (P := PixelLaws) (fun _ _ _ => PixelLaws.move) (fun _ _ h => h.congr rfl rfl) (fun u v h hr => ?_) (fun u i h _ => ?_)
    (fun _ h => h.congr rfl rfl) (.of_safe hc hp) hstep).pixelSafe
  · cases hr
    exact ⟨⟨fun i => by cases i; exacts [h.planes.pixels .a, h.planes.pixels .b], fun i x hx => by cases i <;> cases hx⟩, trivial⟩
  · unfold State.sendEnded State.freeRetired
    split
    · exact h.congr rfl rfl
    · split
      · exact h.congr rfl rfl
      · exact ⟨h.planes.free, h.pending⟩

end

section
/-! PROOFS. Chapter 2: what the composer reaches through a handle is present. -/

namespace Sys2Proof.Machine

open Sys2Proof

variable {s t : State} {b : Bool} {n : Nat}

/-! ### The face table -/

theorem face_setFace (ft : FaceTable) (h k : Nat) (f : Option Face) :
    (ft.setFace h f).face k = if k = h ∧ h ≠ 0 ∧ h < 32 then f else ft.face k := by
  rw [setFace_eq]
  unfold FaceTable.face
  dsimp only
  by_cases hk : k = 0
  · simp only [hk, if_true]
    rw [if_neg fun e => e.2.1 e.1.symm]
  · rw [if_neg hk, if_neg hk, Vector.getElem?_setIfInBounds]
    by_cases hkh : h = k
    · subst hkh
      by_cases hlt : h < 32
      · simp [hk, hlt]
      · simp [hlt]
    · rw [if_neg hkh, if_neg fun e => hkh e.1.symm]

theorem selectRefusal_none {ft : FaceTable} {h : Nat} (hok : selectRefusal ft h = none) : ft.Present h := by
  unfold selectRefusal at hok
  split at hok
  · cases hok
  · split at hok
    · cases hok
    · next hc =>
      by_cases hh : h = 0
      · exact .inl hh
      · exact .inr (by simpa [hh, Option.ne_none_iff_isSome] using hc)

/-- R19: an accepted FACE_LOAD names a handle from 1 to 31, a READY table and codes that it defines. -/
theorem faceLoadRefusal_none {h : Nat} {f : Face} (hok : faceLoadRefusal s h f = none) : f.Safe s.glyphs := by
  unfold faceLoadRefusal at hok
  split at hok
  · cases hok
  · split at hok
    · cases hok
    · split at hok
      · cases hok
      · next x hx =>
        split at hok
        · cases hok
        · next hbad =>
          obtain ⟨hx, hready⟩ := Option.filter_eq_some_iff.1 hx
          simp only [badEntry, Bool.or_eq_true, decide_eq_true_eq, beq_iff_eq, Bool.not_eq_true', not_or, Bool.not_eq_false] at hbad
          obtain ⟨⟨⟨⟨h1, h2⟩, h3⟩, h4⟩, h5⟩ := hbad
          exact ⟨x, hx, by simpa using hready, h4, h5, Nat.le_of_not_lt h1, Nat.pos_of_ne_zero h2, Nat.le_of_not_lt h3⟩

/-- R22: a handle without a use is not the current one, not on the stack and in no face set. -/
theorem useCount_eq_zero {h : Nat} (hh : h ≠ 0) (hu : useCount s h = 0) :
    s.faces.current ≠ h ∧ (∀ e ∈ s.faces.stack, e.1 ≠ h) ∧ ∀ i x, s.planes.held i = some x → h ∉ x.page.faceSet := by
  unfold useCount at hu
  rw [if_neg hh] at hu
  have hsets (i : PlaneId) (hc : (s.planes.get i).faceSet.contains h = false) (x : Held) (hx : s.planes.held i = some x) : h ∉ x.page.faceSet := by
    have hx : (s.planes.get i).held = some x := hx
    simpa [Plane.faceSet, hx] using hc
  have ha : s.planes.a.faceSet.contains h = false := by
    by_contra hc
    have : (if s.planes.a.faceSet.contains h = true then 1 else 0) = 1 := if_pos (by simpa using hc)
    omega
  have hb : s.planes.b.faceSet.contains h = false := by
    by_contra hc
    have : (if s.planes.b.faceSet.contains h = true then 1 else 0) = 1 := if_pos (by simpa using hc)
    omega
  refine ⟨fun e => ?_, fun e he heq => ?_, fun i x hx => ?_⟩
  · rw [if_pos e] at hu
    omega
  · have : (s.faces.stack.filter fun e => e.1 == h).length ≠ 0 := fun e0 => by
      have hm : e ∈ s.faces.stack.filter fun e => e.1 == h := List.mem_filter.2 ⟨he, by simpa using heq⟩
      rw [List.length_eq_zero_iff.1 e0] at hm
      cases hm
    omega
  · cases i with
    | a => exact hsets .a ha x hx
    | b => exact hsets .b hb x hx

/-! ### The laws -/

/-- The laws of FaceSafe by name. -/
structure FaceLaws (s : State) : Prop where
  stack : s.faces.stack.length ≤ 8
  shift : -64 ≤ s.faces.shift ∧ s.faces.shift ≤ 64
  shifts : ∀ e ∈ s.faces.stack, -64 ≤ e.2 ∧ e.2 ≤ 64
  current : s.faces.Present s.faces.current
  stacked : ∀ e ∈ s.faces.stack, s.faces.Present e.1
  sets : s.planes.Each fun x => ∀ h ∈ x.page.faceSet, s.faces.Present h
  carry : ∀ e ∈ s.comp.carry, s.faces.Present e.face
  covers : s.planes.Each fun x => x.page.SetCovers (if x.part = .composing then s.comp.buffer else [])
  faces : ∀ f ∈ s.faces.entries.toList, ∀ x, f = some x → x.Safe s.glyphs

theorem faceSafe_iff : FaceSafe s ↔ FaceLaws s := by
  have hset (i : PlaneId) : (∀ h ∈ (s.planes.get i).faceSet, s.faces.Present h) ↔
      ∀ x, s.planes.held i = some x → ∀ h ∈ x.page.faceSet, s.faces.Present h := by
    unfold Plane.faceSet Planes.held
    cases (s.planes.get i).held with
    | none => exact ⟨fun _ x hx => (by cases hx), fun _ h hh => by cases hh⟩
    | some x => exact ⟨fun h y hy => (by cases hy; exact h), fun h => h x rfl⟩
  constructor
  · rintro ⟨h1, h2, h3, h4, h5, ha, hb, h8, ca, cb, h11⟩
    exact ⟨h1, h2, h3, h4, h5, fun i => by cases i; exacts [(hset .a).1 ha, (hset .b).1 hb], h8, fun i => by cases i; exacts [ca, cb], h11⟩
  · rintro ⟨h1, h2, h3, h4, h5, h6, h7, h8, h9⟩
    exact ⟨h1, h2, h3, h4, h5, (hset .a).2 (h6 .a), (hset .b).2 (h6 .b), h7, h8 .a, h8 .b, h9⟩

theorem Held.Covers.other_of {x : Held} (hx : x.part ≠ .composing) {es es' : List Entry}
    (h : x.page.SetCovers (if x.part = .composing then es else [])) : x.page.SetCovers (if x.part = .composing then es' else []) := by
  rw [if_neg hx] at h ⊢
  exact h

/-- Planes that hold fewer pages, with the rest as it was. -/
theorem FaceLaws.quiet (h : FaceLaws s) (hq : Quiet s t) : FaceLaws t := by
  obtain ⟨h1, h2, h3, h4, h5, h6, h7, h8, h9⟩ := h
  constructor <;> simp only [hq.faces, hq.comp, hq.glyphs]
  case sets => exact h6.fewer hq.planes fun x y hpage _ => by rw [hpage]; exact fun hy => hy
  case covers => exact h8.fewer hq.planes fun x y hpage hpart => by simp only [hpage, hpart]; exact fun hy => hy
  all_goals assumption

/-- What the laws do not speak of may change. -/
theorem FaceLaws.congr (h : FaceLaws s) (hf : t.faces = s.faces) (hg : t.glyphs = s.glyphs) (hp : t.planes = s.planes)
    (hc : t.comp.carry = s.comp.carry) (hb : t.comp.buffer = s.comp.buffer) : FaceLaws t := by
  obtain ⟨h1, h2, h3, h4, h5, h6, h7, h8, h9⟩ := h
  constructor <;> simp only [hf, hg, hp, hc, hb] <;> assumption

/-- The planes, the buffer and the carry change, with the faces as they were. -/
theorem FaceLaws.recompose (h : FaceLaws s) (hf : t.faces = s.faces) (hg : t.glyphs = s.glyphs)
    (hsets : t.planes.Each fun x => ∀ h ∈ x.page.faceSet, s.faces.Present h) (hcarry : ∀ e ∈ t.comp.carry, s.faces.Present e.face)
    (hcovers : t.planes.Each fun x => x.page.SetCovers (if x.part = .composing then t.comp.buffer else [])) : FaceLaws t := by
  obtain ⟨h1, h2, h3, h4, h5, -, -, -, h9⟩ := h
  exact ⟨hf ▸ h1, hf ▸ h2, hf ▸ h3, hf ▸ h4, hf ▸ h5, hf ▸ hsets, hf ▸ hcarry, hcovers, hf ▸ hg ▸ h9⟩

/-- The composing page covers the buffer, whose faces are so present. -/
theorem FaceLaws.composed (h : FaceLaws s) {i : PlaneId} {page : Page} (hi : s.composingPage = some (i, page)) :
    page.SetCovers s.comp.buffer ∧ ∀ h ∈ page.faceSet, s.faces.Present h :=
  ⟨h.covers i _ (held_of_pageOf hi), h.sets i _ (held_of_pageOf hi)⟩

theorem present_zero (ft : FaceTable) : ft.Present 0 := .inl rfl

theorem mem_faceSetOf {ps : List Placement} {k : Nat} : k ∈ faceSetOf ps ↔ ∃ p ∈ ps, p.face = k := by
  induction ps with
  | nil => simp [faceSetOf]
  | cons p t ih =>
    have : faceSetOf (p :: t) = insertNat p.face (faceSetOf t) := rfl
    rw [this, mem_insertNat, ih]
    simp [eq_comm]

/-! ### Commits and appends -/

theorem FaceLaws.placeLine (hp : PlaneLaws b s) (h : FaceLaws s) {i : PlaneId} {page : Page} (hi : s.composingPage = some (i, page))
    {l : EndingLine} (hl : l.StartsBuffer s) : FaceLaws (placeLine s i page l.entries.length (layOut s page l)) := by
  obtain ⟨⟨hplaced, hbuffer⟩, hset⟩ := h.composed hi
  obtain ⟨px, he⟩ := placeLine_eq s i page l.entries.length (layOut s page l)
  rw [he]
  refine h.recompose rfl rfl (Planes.Each.setPixels (hp.each_setPage (page' := page.withLine _) hi h.sets (fun _ _ hx => hx) hset) i px) h.carry
    (Planes.Each.setPixels (hp.each_setPage hi h.covers (fun x hx hq => Held.Covers.other_of hx hq) ⟨fun p hp' => ?_, fun e he' => ?_⟩) i px)
  · rcases List.mem_append.1 hp' with hp' | hp'
    · exact hplaced p hp'
    · have hfaces := layOut_map (f := (·.face)) (g := (·.face)) (fun _ _ _ _ => rfl) s page l
      have hm : p.face ∈ l.entries.map (·.face) := hfaces ▸ List.mem_map_of_mem hp'
      obtain ⟨e, he', hpe⟩ := List.mem_map.1 hm
      rw [← hpe]
      exact hbuffer e (hl.1.subset he')
  · exact hbuffer e (List.mem_of_mem_drop he')

theorem FaceLaws.pageFull (hp : PlaneLaws b s) (h : FaceLaws s) : FaceLaws s.pageFull := by
  cases hi : s.composingPage with
  | none =>
    unfold State.pageFull
    rw [hi]
    exact h
  | some p =>
    obtain ⟨⟨hplaced, hbuffer⟩, hset⟩ := h.composed (i := p.1) (page := p.2) hi
    have present {k : Nat} (hk : k = 0 ∨ k ∈ p.2.faceSet) : s.faces.Present k := hk.elim (fun e => e ▸ present_zero _) (hset k)
    rw [pageFull_eq (i := p.1) (page := p.2) hi]
    refine h.recompose rfl rfl (hp.each_ready hi h.sets (fun _ _ hx => hx) fun k hk => ?_) (fun e he => ?_)
      (hp.each_ready hi h.covers (fun x hx hq => Held.Covers.other_of hx hq) ⟨fun q hq => .inr (mem_faceSetOf.2 ⟨q, hq, rfl⟩), fun e he => by cases he⟩)
    · obtain ⟨q, hq, rfl⟩ := mem_faceSetOf.1 hk
      exact present (hplaced q hq)
    · rcases List.mem_append.1 he with he | he
      · exact present (hbuffer e he)
      · exact h.carry e he

theorem FaceLaws.commit (hp : PlaneLaws b s) (h : FaceLaws s) {l : EndingLine} (hl : l.StartsBuffer s) : FaceLaws (s.commit l).state := by
  cases hi : s.composingPage with
  | none =>
    rw [commit_none hi]
    exact h
  | some p =>
    rw [commit_cases (i := p.1) (page := p.2) hi]
    split
    · exact h.pageFull hp
    · exact h.placeLine hp hi hl

/-- The laws that commits keep together. -/
abbrev FaceLaws.With (b : Bool) (n : Nat) (s : State) : Prop := (PlaneLaws b s ∧ ComposerLaws n s) ∧ FaceLaws s

theorem FaceLaws.commit_with (h : FaceLaws.With b n s) {l : EndingLine} (hl : l.StartsBuffer s) : FaceLaws.With b n (s.commit l).state :=
  ⟨ComposerLaws.commit_both h.1 hl, h.2.commit h.1.1 hl⟩

/-- R22 and R59: the face of an entry that joins the buffer joins the face set. -/
theorem FaceLaws.join (hp : PlaneLaws b s) (h : FaceLaws s) (hs : s.comp.state = .composing) {e : Entry} (hf : s.faces.Present e.face) :
    FaceLaws (s.join e) := by
  obtain ⟨⟨i, page⟩, hi⟩ := Option.isSome_iff_exists.1 (hp.composingPage_isSome.2 hs)
  obtain ⟨⟨hplaced, hbuffer⟩, hset⟩ := h.composed hi
  obtain ⟨p, hwith, -⟩ := withPara_eq s.comp
  have hmem {k : Nat} : k ∈ (page.joined (s.stamped e)).faceSet ↔ k ∈ page.faceSet ∨ e.face ≠ 0 ∧ k = e.face := by
    show k ∈ (if e.face = 0 then page.faceSet else insertNat e.face page.faceSet) ↔ _
    split
    · next he => simp [he]
    · next he => simp [he, mem_insertNat, or_comm]
  rw [join_eq_of hi, Composer.joined, hwith]
  refine h.recompose rfl rfl (hp.each_setPage hi h.sets (fun _ _ hx => hx) fun k hk => ?_) h.carry
    (hp.each_setPage hi h.covers (fun x hx hq => Held.Covers.other_of hx hq)
      ⟨fun p hp' => (hplaced p hp').imp_right fun hm => hmem.2 (.inl hm), fun q hq => ?_⟩)
  · rcases hmem.1 hk with hk | ⟨-, rfl⟩
    · exact hset k hk
    · exact hf
  · rcases List.mem_append.1 hq with hq | hq
    · exact (hbuffer q hq).imp_right fun hm => hmem.2 (.inl hm)
    · rw [List.mem_singleton.1 hq]
      by_cases he : e.face = 0
      · exact .inl he
      · exact .inr (hmem.2 (.inr ⟨he, rfl⟩))

theorem FaceLaws.append (hp : PlaneLaws b s) (hc : ComposerLaws 255 s) (h : FaceLaws s) (hs : s.comp.state = .composing)
    (ho : s.comp.nextOrdinal < 8192) (hl : s.comp.buffer.length + s.comp.carry.length < 256) {e : Entry} (hf : s.faces.Present e.face) (cls : Nat) :
    FaceLaws ((s.join e).afterAppend cls).state :=
  (afterAppend_keeps_starting (P := FaceLaws.With b 256) (fun _ _ hu hl => FaceLaws.commit_with hu hl) (fun _ hu => hu.1.2.measure) cls (join_buffer e)
    ⟨⟨hp.join e, hc.join hp hs ho hl e⟩, h.join hp hs hf⟩).2

theorem lookup_face (s : State) (code cls : Nat) : (s.lookup code cls).1.face = s.faces.current := by
  unfold State.lookup
  dsimp only
  split
  · rfl
  · split_ifs <;> first | rfl | (split <;> rfl)

/-! ### The face table changes -/

/-- A face table in which every handle that can be reached is as present as before. -/
theorem FaceLaws.setFace (h : FaceLaws s) {k : Nat} {f : Option Face} (hf : ∀ x, f = some x → x.Safe s.glyphs)
    (hreach : f = none → s.comp.carry = [] ∧ k ≠ 0 ∧ ((s.faces.face k).isSome = true → useCount s k = 0)) :
    FaceLaws (s.setFaces (s.faces.setFace k f)) := by
  have hsame : (s.faces.setFace k f).stack = s.faces.stack ∧ (s.faces.setFace k f).shift = s.faces.shift ∧
      (s.faces.setFace k f).current = s.faces.current := by
    rw [setFace_eq]
    exact ⟨rfl, rfl, rfl⟩
  obtain ⟨hstack, hshift, hcurrent⟩ := hsame
  have present {j : Nat} (hj : s.faces.Present j) (hused : f = none → (s.faces.face k).isSome = true → j ≠ k) : (s.faces.setFace k f).Present j := by
    refine hj.imp_right fun hj => ?_
    rw [face_setFace]
    split
    · next hk =>
      obtain ⟨rfl, -, -⟩ := hk
      cases f with
      | some x => rfl
      | none => exact absurd rfl (hused rfl hj)
    · exact hj
  have hunused (hn : f = none) (hk : (s.faces.face k).isSome = true) := useCount_eq_zero (hreach hn).2.1 ((hreach hn).2.2 hk)
  obtain ⟨h1, h2, h3, h4, h5, h6, h7, h8, h9⟩ := h
  constructor <;> simp only [State.setFaces_faces, State.setFaces_planes, State.setFaces_comp, State.setFaces_glyphs, hstack, hshift, hcurrent]
  case stack => exact h1
  case shift => exact h2
  case shifts => exact h3
  case current => exact present h4 fun hn hk => (hunused hn hk).1
  case stacked => exact fun e he => present (h5 e he) fun hn hk => (hunused hn hk).2.1 e he
  case sets => exact fun i x hx j hj => present (h6 i x hx j hj) fun hn hk e => (hunused hn hk).2.2 i x hx (e ▸ hj)
  case carry =>
    exact fun e he => present (h7 e he) fun hn _ => by
      rw [(hreach hn).1] at he
      cases he
  case covers => exact h8
  case faces =>
    intro g hg x hx
    rw [setFace_eq] at hg
    rcases mem_of_mem_setIfInBounds hg with rfl | hg
    · exact hf x hx
    · exact h9 g hg x hx

/-- A table that no face can name changes. -/
theorem FaceLaws.setTable (h : FaceLaws s) {id : Nat} {x y : GlyphTable} (hx : s.tableAt id = some x)
    (hn : x.state = .ready → namedByFace s.faces id = false) : FaceLaws (s.setTable id y) := by
  rw [setTable_eq]
  obtain ⟨h1, h2, h3, h4, h5, h6, h7, h8, h9⟩ := h
  refine ⟨h1, h2, h3, h4, h5, h6, h7, h8, fun f hf g hg => ?_⟩
  obtain ⟨z, hz, hready, hrest⟩ := h9 f hf g hg
  have hne : id ≠ g.table := by
    rintro rfl
    rw [show s.tableAt g.table = some z from hz] at hx
    cases hx
    have := hn hready
    unfold namedByFace at this
    rw [List.any_eq_false] at this
    exact this f hf (by rw [hg]; exact beq_self_eq_true _)
  refine ⟨z, ?_, hready, hrest⟩
  rw [State.setGlyphs_glyphs, Vector.getElem?_setIfInBounds, if_neg hne]
  exact hz

/-! ### Pages open and close -/

theorem FaceLaws.closePage (hp : PlaneLaws b s) (h : FaceLaws s) : FaceLaws s.closePage := by
  unfold State.closePage
  split
  · exact h
  · next i page hi =>
    obtain ⟨⟨hplaced, -⟩, hset⟩ := h.composed hi
    exact h.recompose rfl rfl (hp.each_ready hi h.sets (fun _ _ hx => hx) hset) h.carry
      (hp.each_ready hi h.covers (fun x hx hq => Held.Covers.other_of hx hq) ⟨hplaced, fun e he => by cases he⟩)

/-- A fresh page opens, with an empty buffer. -/
theorem FaceLaws.openOn (h : FaceLaws s) {i : PlaneId} (hi : s.planes.available = some i) {number : PageNumber} {frame : Frame} {cont : Bool}
    {notes : List Note} {c : Composer} (hcarry : ∀ e ∈ c.carry, s.faces.Present e.face) (hb : c.buffer = []) :
    FaceLaws ((s.setPlanes (s.planes.openOn i (Page.fresh number frame cont notes))).setComp c) := by
  refine h.recompose rfl rfl (h.sets.openOn hi (fun _ _ hx => hx) fun k hk => by cases hk) hcarry
    (h.covers.openOn hi (fun x hx hq => Held.Covers.other_of hx hq) ⟨fun p hp => (by cases hp), fun e he => ?_⟩)
  rw [State.setComp_comp, hb] at he
  cases he

theorem FaceLaws.grant (hc : ComposerLaws n s) (h : FaceLaws s) : FaceLaws s.grant := by
  unfold State.grant
  split
  · exact h
  · split
    · next number frame i _ hi =>
      have hopen : FaceLaws (s.openPage i number frame) := h.openOn hi h.carry rfl
      exact hopen.congr rfl rfl rfl rfl rfl
    · next hs hi => exact h.openOn hi h.carry (hc.comp.closed (by rw [hs]; exact fun e => by cases e)).1
    · exact h

/-- R33 and R57: nothing is left to reach a face by but the pages of READY and front plane. -/
theorem FaceLaws.streamReset (hp : PlaneLaws b s) (h : FaceLaws s) :
    FaceLaws (((s.setComp Composer.reset).setFaces
      { s.faces with current := 0, shift := 0, stack := [], stackError := false, underflow := false }).setPlanes
      s.planes.dropComposing |>.setNotes { s.notes with openIds := [] }) := by
  have hsets := h.sets.fewer (Planes.fewer_dropComposing _) fun x y hpage _ hy => by rw [hpage]; exact hy
  have hcovers := h.covers.fewer (Planes.fewer_dropComposing _) fun x y hpage hpart hy => by simp only [hpage, hpart]; exact hy
  exact ⟨Nat.zero_le _, (by decide : (-64 : Int) ≤ 0 ∧ (0 : Int) ≤ 64), fun e he => (by cases he), present_zero _, fun e he => (by cases he), hsets, fun e he => (by cases he),
    fun i x hx => Held.Covers.other_of (es := s.comp.buffer) (hp.not_composing_of_dropped hx) (hcovers i x hx), h.faces⟩

/-! ### The moves -/

theorem FaceLaws.setPageNotes (h : FaceLaws s) {part : Part} {i : PlaneId} {page : Page} (hi : s.planes.pageOf part = some (i, page)) (notes : List Note) :
    FaceLaws (s.setPlanes (s.planes.setPage i { page with notes })) :=
  h.recompose rfl rfl (h.sets.setPage hi fun hx => hx) h.carry (h.covers.setPage hi fun hx => hx)

theorem FaceLaws.move {o : Origin} (m : Move o s t) (hp : PlaneLaws b s) (hc : ComposerLaws 255 s) (h : FaceLaws s) : FaceLaws t := by
  have hcommit (u : State) (l : EndingLine) (hu : FaceLaws.With b 255 u) (hl : l.StartsBuffer u) := FaceLaws.commit_with hu hl
  cases m with
  | select k hok => exact { h with current := selectRefusal_none hok }
  | push hd =>
    refine { h with stack := hd, shifts := fun e he => ?_, stacked := fun e he => ?_ } <;> rcases List.mem_cons.1 he with rfl | he
    · exact h.shift
    · exact h.shifts e he
    · exact h.current
    · exact h.stacked e he
  | pop face shift rest hst =>
    have hsub {e : Nat × Int} (he : e ∈ rest) : e ∈ s.faces.stack := hst ▸ List.mem_cons_of_mem _ he
    have htop : (face, shift) ∈ s.faces.stack := hst ▸ List.mem_cons_self
    refine { h with stack := ?_, shift := h.shifts _ htop, shifts := fun e he => h.shifts e (hsub he), current := h.stacked _ htop,
                    stacked := fun e he => h.stacked e (hsub he) }
    have := h.stack
    rw [hst, List.length_cons] at this
    exact Nat.le_of_succ_le this
  | shift z hz => exact { h with shift := hz }
  | sticky => exact { h with }
  | loadFace k f hok =>
    refine h.setFace (fun x hx => ?_) fun e => (by cases e)
    cases hx
    exact faceLoadRefusal_none hok
  | unloadFace k hcarry hr hu =>
    exact h.setFace (fun x hx => by cases hx) fun _ => ⟨hcarry, fun e => hr (.inl e), fun hk => Nat.eq_zero_of_not_pos fun hpos => hu ⟨hk, hpos⟩⟩
  | beginTable r id budget hok =>
    obtain ⟨x, hx, he, -⟩ := tableBeginRefusal_none hok
    exact h.setTable hx fun e => by rw [he] at e; cases e
  | faultTable id x hx hs => exact h.setTable hx fun e => by rw [hs] at e; cases e
  | defineGlyph id x r g hx hs => exact h.setTable hx fun e => by rw [hs] at e; cases e
  | endTable id x hx hs => exact h.setTable hx fun e => by rw [hs] at e; cases e
  | dropTable id x hx hn => exact h.setTable hx fun e => by simpa [e] using hn
  | appendNew code cls hs hcarry ho =>
    refine h.append hp hc hs ho ?_ ?_ cls
    · rw [hcarry]
      exact Nat.lt_succ_of_le hc.comp.buffer
    · rw [lookup_face]
      exact h.current
  | reappend e rest hs hcarry ho =>
    obtain ⟨hu, hroom⟩ := hc.takeCarry hp hs hcarry
    have hrest : FaceLaws (s.setComp { s.comp with carry := rest }) :=
      { h with carry := fun e' he => h.carry e' (hcarry ▸ List.mem_cons_of_mem _ he) }
    exact hrest.append (hp.setComp (c := { s.comp with carry := rest }) rfl) hu hs ho hroom (h.carry e (hcarry ▸ List.mem_cons_self)) e.cls
  | pageFull => exact h.pageFull hp
  | breakTest =>
    exact (breakTest_keeps_starting (P := FaceLaws.With b 255) hcommit (fun _ hu => hu.1.2.measure) ⟨⟨hp, hc⟩, h⟩).2
  | endParagraph hs hcarry =>
    rcases endParagraph_state s with he | ⟨hl, u, rfl, he | he⟩ <;> rw [he]
    · exact h.congr rfl rfl rfl rfl rfl
    · exact h.commit hp hl
    · exact (h.commit hp hl).congr rfl rfl rfl rfl rfl
  | openParagraph p => exact h.congr rfl rfl rfl rfl rfl
  | closePage => exact h.closePage hp
  | openPage i number frame hf hi => exact h.openOn hi h.carry rfl
  | grant => exact h.grant hc
  | freeReady i => exact h.quiet (quiet_setPlanes (Planes.fewer_free _ _))
  | showReady i hi => exact h.quiet (showReady_quiet hi)
  | streamReset => exact h.streamReset hp
  | openNote i page n tone hs hi => exact (h.setPageNotes hi (insertNote n page.notes)).congr rfl rfl rfl rfl rfl
  | paintNote r i page style hi => exact h.setPageNotes hi _
  | eraseNote id i page hi => exact h.setPageNotes hi _
  | closeNote id hs hid =>
    unfold State.mapComposingPage
    split
    · exact h.congr rfl rfl rfl rfl rfl
    · next i page hi => exact FaceLaws.congr (h.setPageNotes hi (Machine.closeNote s.comp.nextOrdinal id page.notes)) rfl rfl rfl rfl rfl
  | drawHeld x => exact h.quiet (drawHeld_quiet s x)
  | drawTested x => exact h.quiet (drawTested_quiet s x)
  | queueHold => exact h.quiet (queueHold_quiet s)
  | dispatch _ _ hd => exact h.quiet (dispatchAbove_quiet hd)
  | finish i => exact h.quiet (finish_quiet s i)
  | timeout i => exact h.quiet (timeout_quiet s i)
  | abort => exact h.quiet (abort_quiet s)
  | _ => exact h.congr rfl rfl rfl rfl rfl

theorem FaceLaws.reset : FaceLaws State.reset := by
  refine ⟨Nat.zero_le _, ⟨by decide, by decide⟩, fun e he => (by cases he), present_zero _, fun e he => (by cases he), fun i x hx => ?_,
    fun e he => (by cases he), fun i x hx => ?_, fun f hf x hx => ?_⟩
  · cases i <;> cases hx
  · cases i <;> cases hx
  · have : f = none := by
      rw [show State.reset.faces.entries.toList = List.replicate 32 none from rfl] at hf
      exact List.eq_of_mem_replicate hf
    rw [this] at hx
    cases hx

end Sys2Proof.Machine
end

section

open Sys2Proof Sys2Proof.Machine

/-- Settles O52: a face is unloaded only without a use, and what can still be reached through a handle counts as one. -/
theorem stepKeepsFaceSafe : Obligations.StepKeepsFaceSafe := by
  intro s t hp hc hf hstep
  rw [faceSafe_iff] at hf ⊢
  refine (step_keeps_composed (P := FaceLaws) (fun _ _ _ m hp hc h => h.move m hp hc) (fun _ _ h => h.congr rfl rfl rfl rfl rfl) (fun u v hr _ => ?_)
    (fun u i _ h => h.quiet (sendEnded_quiet u i)) (fun _ h => h.congr rfl rfl rfl rfl rfl) ⟨hp, hc, hf⟩ hstep).2
  cases hr
  refine FaceLaws.recompose FaceLaws.reset rfl rfl (fun i x hx => ?_) (fun e he => by cases he) (fun i x hx => ?_) <;> cases i <;> cases hx

end

section
/-! PROOFS. Chapter 7: note lists and what is done to them. -/

namespace Sys2Proof.Machine

open Sys2Proof

/-! ### The order of a note list -/

theorem Note.before_iff {m n : Note} : m.before n = true ↔ m.start < n.start ∨ m.start = n.start ∧ m.id ≤ n.id := by
  simp [Note.before]

theorem Note.before_total (m n : Note) : m.before n = true ∨ n.before m = true := by
  simp only [Note.before_iff]
  omega

theorem Note.before_trans {l m n : Note} (h : l.before m = true) (k : m.before n = true) : l.before n = true := by
  simp only [Note.before_iff] at *
  omega

theorem insertNote_perm (n : Note) (l : List Note) : (insertNote n l).Perm (n :: l) := by
  induction l with
  | nil => exact .refl _
  | cons m t ih =>
    unfold insertNote
    split
    · exact .refl _
    · exact (ih.cons m).trans (.swap n m t)

theorem mem_insertNote {n m : Note} {l : List Note} : m ∈ insertNote n l ↔ m = n ∨ m ∈ l := by
  rw [(insertNote_perm n l).mem_iff, List.mem_cons]

theorem insertNote_sorted {n : Note} {l : List Note} (h : l.Pairwise fun m n => m.before n = true) :
    (insertNote n l).Pairwise fun m n => m.before n = true := by
  induction l with
  | nil => exact List.pairwise_singleton _ _
  | cons m t ih =>
    obtain ⟨hm, ht⟩ := List.pairwise_cons.1 h
    unfold insertNote
    split
    · next hn =>
      refine List.pairwise_cons.2 ⟨fun x hx => ?_, h⟩
      rcases List.mem_cons.1 hx with rfl | hx
      · exact hn
      · exact Note.before_trans hn (hm x hx)
    · next hn =>
      refine List.pairwise_cons.2 ⟨fun x hx => ?_, ih ht⟩
      rcases mem_insertNote.1 hx with rfl | hx
      · exact (Note.before_total m x).resolve_right hn
      · exact hm x hx

theorem foldr_insertNote_perm (l : List Note) : (l.foldr insertNote []).Perm l := by
  induction l with
  | nil => exact .refl _
  | cons n t ih => exact (insertNote_perm n _).trans (ih.cons n)

theorem foldr_insertNote_sorted (l : List Note) : (l.foldr insertNote []).Pairwise fun m n => m.before n = true := by
  induction l with
  | nil => exact List.Pairwise.nil
  | cons n t ih => exact insertNote_sorted ih

/-- R124: the notes held for a continuation are those moved, in order. -/
theorem heldNotes_perm (c : Nat) (l : List Note) : (heldNotes c l).Perm (l.filterMap (Note.movedAtFull c)) := foldr_insertNote_perm _

theorem mem_heldNotes {c : Nat} {l : List Note} {m : Note} : m ∈ heldNotes c l ↔ ∃ n ∈ l, n.movedAtFull c = some m := by
  rw [(heldNotes_perm c l).mem_iff, List.mem_filterMap]

/-! ### Lists that stay lists of notes -/

theorem filterMap_ids_sublist {f : Note → Option Note} (hf : ∀ n m, f n = some m → m.id = n.id) (l : List Note) :
    ((l.filterMap f).map (·.id)).Sublist (l.map (·.id)) := by
  induction l with
  | nil => exact List.Sublist.refl _
  | cons n t ih =>
    cases h : f n with
    | none =>
      rw [List.filterMap_cons_none h]
      exact ih.cons _
    | some m =>
      rw [List.filterMap_cons_some h, List.map_cons, List.map_cons, hf n m h]
      exact ih.cons_cons _

variable {l : List Note}

theorem NoteListSafe.nil : NoteListSafe [] := ⟨Nat.zero_le _, List.nodup_nil, List.Pairwise.nil, fun n hn => by cases hn⟩

/-- Notes ended or dropped, in their order. -/
theorem NoteListSafe.filterMap (h : NoteListSafe l) {f : Note → Option Note}
    (hf : ∀ n m, f n = some m → m.id = n.id ∧ m.start = n.start) (hm : ∀ n ∈ l, ∀ m, f n = some m → n.Safe → m.Safe) :
    NoteListSafe (l.filterMap f) := by
  obtain ⟨hlen, hids, hsort, hsafe⟩ := h
  refine ⟨Nat.le_trans (List.length_filterMap_le ..) hlen, hids.sublist (filterMap_ids_sublist (fun n m hm => (hf n m hm).1) l), ?_, fun m hmem => ?_⟩
  · refine List.Pairwise.filterMap f (fun m n hmn m' hm' n' hn' => ?_) hsort
    obtain ⟨h1, h2⟩ := hf m m' hm'
    obtain ⟨h3, h4⟩ := hf n n' hn'
    simpa only [Note.before_iff, h1, h2, h3, h4] using hmn
  · obtain ⟨n, hn, hnm⟩ := List.mem_filterMap.1 hmem
    exact hm n hn m hnm (hsafe n hn)

theorem NoteListSafe.erase (h : NoteListSafe l) (id : Nat) : NoteListSafe (eraseNote id l) := by
  obtain ⟨hlen, hids, hsort, hsafe⟩ := h
  exact ⟨Nat.le_trans (List.length_filter_le ..) hlen, hids.sublist (List.filter_sublist.map _), hsort.sublist List.filter_sublist,
    fun n hn => hsafe n (List.mem_of_mem_filter hn)⟩

theorem NoteListSafe.insert (h : NoteListSafe l) {n : Note} (hlen : l.length < 64) (hid : ∀ m ∈ l, m.id ≠ n.id) (hn : n.Safe) :
    NoteListSafe (insertNote n l) := by
  obtain ⟨-, hids, hsort, hsafe⟩ := h
  refine ⟨?_, ((insertNote_perm n l).map _).nodup_iff.2 (List.nodup_cons.2 ⟨fun hm => ?_, hids⟩), insertNote_sorted hsort, fun m hm => ?_⟩
  · rw [(insertNote_perm n l).length_eq]
    exact hlen
  · obtain ⟨m, hm, he⟩ := List.mem_map.1 hm
    exact hid m hm he
  · rcases mem_insertNote.1 hm with rfl | hm
    · exact hn
    · exact hsafe m hm

theorem mem_eraseNote {id : Nat} {n : Note} : n ∈ eraseNote id l ↔ n ∈ l ∧ n.id ≠ id := by
  simp [eraseNote]

theorem findNote_eq_none {id : Nat} : findNote id l = none ↔ ∀ n ∈ l, n.id ≠ id := by
  simp [findNote]

theorem findNote_eq_some {id : Nat} {n : Note} (h : findNote id l = some n) : n ∈ l ∧ n.id = id :=
  ⟨List.mem_of_find?_eq_some h, by simpa using List.find?_some h⟩

/-- A list with a note loses one by its erasure. -/
theorem eraseNote_length_lt {id : Nat} {n : Note} (hn : n ∈ l) (hid : n.id = id) : (eraseNote id l).length < l.length := by
  refine Nat.lt_of_le_of_ne (List.length_filter_le ..) fun e => ?_
  have := List.length_filter_eq_length_iff.1 e n hn
  simp [hid] at this

/-- No two notes of a list have one id. -/
theorem NoteListSafe.inj (h : NoteListSafe l) {m n : Note} (hm : m ∈ l) (hn : n ∈ l) (e : m.id = n.id) : m = n :=
  List.inj_on_of_nodup_map h.2.1 hm hn e

/-! ### Notes at a close and at a full page -/

theorem Note.Safe.closed {n : Note} (h : n.Safe) {stop : Nat} (hs : n.start ≤ stop) (c : Bool) :
    ({ n with stop := some stop, closedByPage := c } : Note).Safe :=
  ⟨h.1, h.2.1, fun e he => by cases he; exact hs⟩

theorem Note.atClose_cases {g : Nat} {n m : Note} (h : n.atClose g = some m) :
    (m = n ∧ n.stop.isSome = true) ∨ n.start < g ∧ n.stop = none ∧ m = { n with stop := some (g - 1), closedByPage := true } := by
  unfold Note.atClose at h
  split at h
  · next e he =>
    cases h
    exact .inl ⟨rfl, by rw [he]; rfl⟩
  · next he =>
    split at h
    · next hg =>
      cases h
      exact .inr ⟨hg, he, rfl⟩
    · cases h

theorem Note.keptAtFull_cases {c : Nat} {n m : Note} (h : n.keptAtFull c = some m) :
    n.start < c ∧ ((m = n ∧ ∃ e, n.stop = some e ∧ e < c) ∨ m = { n with stop := some (c - 1), closedByPage := true }) := by
  unfold Note.keptAtFull at h
  split at h
  · cases h
  · next hc =>
    refine ⟨Nat.lt_of_not_le hc, ?_⟩
    split at h
    · next e he =>
      split at h
      · next hlt =>
        cases h
        exact .inl ⟨rfl, e, he, hlt⟩
      · cases h
        exact .inr rfl
    · cases h
      exact .inr rfl

/-- R124: a note that moves keeps id, style and tone; its start and end, if it has one, count from the first carried ordinal. -/
theorem Note.movedAtFull_cases {c : Nat} {n m : Note} (h : n.movedAtFull c = some m) :
    m.id = n.id ∧ m.style = n.style ∧ m.tone = n.tone ∧ m.start = n.start - c ∧ m.stop = n.stop.map (· - c) ∧ ∀ e, n.stop = some e → n.start < c → c ≤ e := by
  unfold Note.movedAtFull at h
  split at h
  · next hc =>
    cases h
    exact ⟨rfl, rfl, rfl, rfl, rfl, fun e _ hlt => absurd hc (Nat.not_le_of_lt hlt)⟩
  · next hc =>
    have hstart : 0 = n.start - c := by omega
    split at h
    · next e he =>
      split at h
      · cases h
      · next hlt =>
        cases h
        refine ⟨rfl, rfl, rfl, hstart, by rw [he]; rfl, fun e' he' _ => ?_⟩
        rw [he] at he'
        cases he'
        exact Nat.le_of_not_lt hlt
    · next he =>
      cases h
      exact ⟨rfl, rfl, rfl, hstart, by rw [he]; rfl, fun e he' => by rw [he] at he'; cases he'⟩

/-- R124: an OPEN note always moves. -/
theorem Note.movedAtFull_open {c : Nat} {n : Note} (h : n.stop = none) : ∃ m, n.movedAtFull c = some m := by
  unfold Note.movedAtFull
  rw [h]
  split
  · exact ⟨_, rfl⟩
  · exact ⟨_, rfl⟩

theorem NoteListSafe.atClose (h : NoteListSafe l) (g : Nat) : NoteListSafe (l.filterMap (Note.atClose g)) := by
  refine h.filterMap (fun n m hm => ?_) fun n _ m hm => ?_ <;> rcases Note.atClose_cases hm with ⟨rfl, -⟩ | ⟨hg, -, rfl⟩
  · exact ⟨rfl, rfl⟩
  · exact ⟨rfl, rfl⟩
  · exact fun hn => hn
  · exact fun hn => hn.closed (by omega) true

theorem NoteListSafe.keptAtFull (h : NoteListSafe l) (c : Nat) : NoteListSafe (l.filterMap (Note.keptAtFull c)) := by
  refine h.filterMap (fun n m hm => ?_) fun n _ m hm => ?_ <;> obtain ⟨hc, ⟨rfl, -⟩ | rfl⟩ := Note.keptAtFull_cases hm
  · exact ⟨rfl, rfl⟩
  · exact ⟨rfl, rfl⟩
  · exact fun hn => hn
  · exact fun hn => hn.closed (by omega) true

theorem NoteListSafe.heldNotes (h : NoteListSafe l) (c : Nat) : NoteListSafe (heldNotes c l) := by
  obtain ⟨hlen, hids, -, hsafe⟩ := h
  refine ⟨?_, ((heldNotes_perm c l).map _).nodup_iff.2 (hids.sublist (filterMap_ids_sublist (fun n m hm => (Note.movedAtFull_cases hm).1) l)),
    foldr_insertNote_sorted _, fun m hm => ?_⟩
  · rw [(heldNotes_perm c l).length_eq]
    exact Nat.le_trans (List.length_filterMap_le ..) hlen
  · obtain ⟨n, hn, hmoved⟩ := mem_heldNotes.1 hm
    obtain ⟨h1, h2, h3, h4, h5, -⟩ := Note.movedAtFull_cases hmoved
    obtain ⟨s1, s2, s3⟩ := hsafe n hn
    refine ⟨h1 ▸ s1, by rw [h2, h3]; exact s2, fun e he => ?_⟩
    obtain ⟨e', he', rfl⟩ := Option.map_eq_some_iff.1 (h5 ▸ he)
    have := s3 e' he'
    omega

/-! ### Where notes end -/

variable {g k : Nat}

theorem NotesBelow.mono (h : NotesBelow g l) (hk : g ≤ k) : NotesBelow k l := by
  intro n hn
  have := h n hn
  cases he : n.stop with
  | some e =>
    rw [he] at this
    exact Nat.lt_of_lt_of_le this hk
  | none =>
    rw [he] at this
    exact Nat.le_trans this hk

theorem NotesBelow.stop_lt (h : NotesBelow g l) {n : Note} (hn : n ∈ l) {e : Nat} (he : n.stop = some e) : e < g := by
  have := h n hn
  rw [he] at this
  exact this

theorem NotesBelow.start_le (h : NotesBelow g l) {n : Note} (hn : n ∈ l) (he : n.stop = none) : n.start ≤ g := by
  have := h n hn
  rw [he] at this
  exact this

theorem notesBelow_of (hclosed : ∀ n ∈ l, ∀ e, n.stop = some e → e < g) (hopen : ∀ n ∈ l, n.stop = none → n.start ≤ g) : NotesBelow g l := by
  intro n hn
  cases he : n.stop with
  | some e => exact hclosed n hn e he
  | none => exact hopen n hn he

theorem NotesBelow.subset (h : NotesBelow g l) {m : List Note} (hm : ∀ n ∈ m, n ∈ l) : NotesBelow g m := fun n hn => h n (hm n hn)

theorem NotesBelow.insert (h : NotesBelow g l) {n : Note} (hn : NotesBelow g [n]) : NotesBelow g (insertNote n l) := fun m hm => by
  rcases mem_insertNote.1 hm with rfl | hm
  · exact hn m (List.mem_singleton_self m)
  · exact h m hm

/-- R123: a closed page's notes all end below its ordinals. -/
theorem atClose_below (h : NotesBelow g l) : NotesBelow g (l.filterMap (Note.atClose g)) ∧ ∀ n ∈ l.filterMap (Note.atClose g), n.stop.isSome = true := by
  constructor
  · refine notesBelow_of (fun m hm e he => ?_) fun m hm he => ?_ <;> obtain ⟨n, hn, hnm⟩ := List.mem_filterMap.1 hm <;>
      rcases Note.atClose_cases hnm with ⟨rfl, hs⟩ | ⟨hg, -, rfl⟩
    · exact h.stop_lt hn he
    · cases he
      omega
    · rw [he] at hs
      cases hs
    · cases he
  · intro m hm
    obtain ⟨n, -, hnm⟩ := List.mem_filterMap.1 hm
    rcases Note.atClose_cases hnm with ⟨rfl, hs⟩ | ⟨-, -, rfl⟩
    · exact hs
    · rfl

/-- R124: what a full page keeps ends below the first carried ordinal. -/
theorem keptAtFull_below (c : Nat) (l : List Note) :
    NotesBelow c (l.filterMap (Note.keptAtFull c)) ∧ ∀ n ∈ l.filterMap (Note.keptAtFull c), n.stop.isSome = true := by
  constructor
  · refine notesBelow_of (fun m hm e he => ?_) fun m hm he => ?_ <;> obtain ⟨n, hn, hnm⟩ := List.mem_filterMap.1 hm <;>
      obtain ⟨hc, ⟨rfl, e', he', hlt⟩ | rfl⟩ := Note.keptAtFull_cases hnm
    · rw [he] at he'
      cases he'
      exact hlt
    · cases he
      omega
    · rw [he] at he'
      cases he'
    · cases he
  · intro m hm
    obtain ⟨n, -, hnm⟩ := List.mem_filterMap.1 hm
    obtain ⟨-, ⟨rfl, e', he', -⟩ | rfl⟩ := Note.keptAtFull_cases hnm
    · rw [he']
      rfl
    · rfl

/-- R124: what moves ends below the carried entries. -/
theorem heldNotes_below {c : Nat} (h : NotesBelow g l) (hsafe : ∀ n ∈ l, n.Safe) : NotesBelow (g - c) (heldNotes c l) := by
  refine notesBelow_of (fun m hm e he => ?_) fun m hm he => ?_ <;> obtain ⟨n, hn, hnm⟩ := mem_heldNotes.1 hm <;>
    obtain ⟨-, -, -, h4, h5, h6⟩ := Note.movedAtFull_cases hnm <;> rw [h5] at he
  · obtain ⟨e', he', rfl⟩ := Option.map_eq_some_iff.1 he
    have hlt := h.stop_lt hn he'
    have hle := (hsafe n hn).2.2 e' he'
    have := h6 e' he'
    omega
  · have := h.start_le hn (Option.map_eq_none_iff.1 he)
    omega

end Sys2Proof.Machine
end

section
/-! PROOFS. Chapter 7: every move keeps the note lists and the open-note list. -/

namespace Sys2Proof.Machine

open Sys2Proof

variable {s t : State} {b b' : Bool} {n k : Nat} {l : List Note}

/-! ### The laws -/

/-- R119: the open-note list names the OPEN notes of a list. -/
structure OpenList (ids : List Nat) (l : List Note) : Prop where
  length : ids.length ≤ 8
  nodup : ids.Nodup
  mem : ∀ id, id ∈ ids ↔ ∃ n ∈ l, n.id = id ∧ n.stop = none

/-- What NoteSafe says of a page, with `c` entries still to join it if it is COMPOSING. -/
structure Held.Noted (c : Nat) (x : Held) : Prop where
  safe : NoteListSafe x.page.notes
  below : NotesBelow (x.page.glyphCount + if x.part = .composing then c else 0) x.page.notes
  closed : x.part ≠ .composing → ∀ n ∈ x.page.notes, n.stop.isSome = true

/-- The laws of NoteSafe by name. Besides the carry, `k` entries are still to join the page: the one that has left the carry, within its append. -/
structure NoteLaws (k : Nat) (s : State) : Prop where
  pages : s.planes.Each (Held.Noted (s.comp.carry.length + k))
  stream : NoteListSafe (streamNotes s)
  carried : s.comp.state ≠ .composing → NotesBelow s.comp.carry.length (streamNotes s)
  opened : OpenList s.notes.openIds (streamNotes s)

theorem noteSafe_iff : NoteSafe s ↔ NoteLaws 0 s := by
  constructor
  · rintro ⟨h1, h2, h3, h4, h5, h6⟩
    exact ⟨fun i x hx => ⟨(h1 i x hx).1, (h1 i x hx).2.1, (h1 i x hx).2.2⟩, h2, h3, h4, h5, h6⟩
  · rintro ⟨h1, h2, h3, h4, h5, h6⟩
    exact ⟨fun i x hx => ⟨(h1 i x hx).safe, (h1 i x hx).below, (h1 i x hx).closed⟩, h2, h3, h4, h5, h6⟩

theorem Held.Noted.other_of {c c' : Nat} {x : Held} (hx : x.part ≠ .composing) (h : x.Noted c) : x.Noted c' :=
  { h with below := by have := h.below; rw [if_neg hx] at this ⊢; exact this }

theorem Held.Noted.congr {c : Nat} {x y : Held} (hpage : x.page = y.page) (hpart : x.part = .composing ↔ y.part = .composing) (h : y.Noted c) : x.Noted c := by
  obtain ⟨h1, h2, h3⟩ := h
  exact ⟨hpage ▸ h1, by simpa only [hpage, hpart] using h2, by simpa only [hpage, Ne, hpart] using h3⟩

theorem Held.Noted.mono {c c' : Nat} {x : Held} (hc : c ≤ c') (h : x.Noted c) : x.Noted c' :=
  { h with below := h.below.mono (by split <;> omega) }

/-! ### The stream's notes -/

theorem streamNotes_composing {i : PlaneId} {page : Page} (hs : s.comp.state = .composing) (hi : s.composingPage = some (i, page)) :
    streamNotes s = page.notes := by
  unfold streamNotes
  rw [hs, hi]
  rfl

theorem streamNotes_congr (hc : t.comp.state = s.comp.state) (hp : t.composingPage = s.composingPage) : streamNotes t = streamNotes s := by
  unfold streamNotes
  rw [hc, hp]

/-- Planes that hold fewer pages show the stream the same page, where both know whether there is one. -/
theorem streamNotes_quiet (hp : PlaneLaws b s) (hp' : PlaneLaws b' t) (hq : Quiet s t) : streamNotes t = streamNotes s := by
  by_cases hs : s.comp.state = .composing
  · have ht : t.comp.state = .composing := hq.comp ▸ hs
    obtain ⟨⟨i, page⟩, hi⟩ := Option.isSome_iff_exists.1 (hp'.composingPage_isSome.2 ht)
    obtain ⟨⟨part, page'⟩, hy, hpage, hpart⟩ := hq.planes i _ (held_of_pageOf hi)
    obtain rfl : part = .composing := hpart.1 rfl
    obtain rfl : page = page' := hpage
    rw [streamNotes_composing ht hi, streamNotes_composing hs (hp.pageOf_iff.2 hy)]
  · unfold streamNotes
    rw [hq.comp]
    cases h : s.comp.state with
    | composing => exact absurd h hs
    | idle => rfl
    | waitPlane p => cases p <;> rfl

theorem NoteLaws.quiet (hp : PlaneLaws b s) (hp' : PlaneLaws b' t) (h : NoteLaws k s) (hq : Quiet s t) : NoteLaws k t := by
  have hstream := streamNotes_quiet hp hp' hq
  obtain ⟨h1, h2, h3, h4⟩ := h
  refine ⟨?_, hstream ▸ h2, ?_, ?_⟩
  · rw [hq.comp]
    exact h1.fewer hq.planes fun x y hpage hpart => Held.Noted.congr hpage hpart
  · rw [hq.comp, hstream]
    exact h3
  · rw [hstream, hq.openIds]
    exact h4

theorem NoteLaws.congr (h : NoteLaws k s) (hp : t.planes = s.planes) (hc : t.comp.state = s.comp.state) (hcarry : t.comp.carry = s.comp.carry)
    (ho : t.notes.openIds = s.notes.openIds) : NoteLaws k t := by
  have hstream : streamNotes t = streamNotes s := streamNotes_congr hc (by rw [State.composingPage, hp]; rfl)
  obtain ⟨h1, h2, h3, h4⟩ := h
  exact ⟨by rw [hp, hcarry]; exact h1, hstream ▸ h2, by rw [hc, hcarry, hstream]; exact h3, by rw [hstream, ho]; exact h4⟩

/-- A state with a composing page. -/
theorem NoteLaws.onPage {i : PlaneId} {page : Page} (hs : t.comp.state = .composing) (hi : t.composingPage = some (i, page))
    (hpages : t.planes.Each (Held.Noted (t.comp.carry.length + k))) (hopen : OpenList t.notes.openIds page.notes) : NoteLaws k t := by
  have hstream := streamNotes_composing hs hi
  exact ⟨hpages, hstream ▸ (hpages i _ (held_of_pageOf hi)).safe, fun e => absurd hs e, hstream ▸ hopen⟩

theorem PlaneLaws.pageOf_setPage (hp : PlaneLaws b s) {part : Part} {i : PlaneId} {page : Page} (hi : s.planes.pageOf part = some (i, page)) (page' : Page) :
    (s.planes.setPage i page').pageOf part = some (i, page') := by
  refine (hp.setPage i page').pageOf_iff.2 ?_
  rw [State.setPlanes_planes, Planes.held_setPage, if_pos rfl, held_of_pageOf hi]
  rfl

theorem PlaneLaws.pageOf_drawn (hp : PlaneLaws b s) {part : Part} {i : PlaneId} {page : Page} (hi : s.planes.pageOf part = some (i, page)) (page' : Page)
    (px : Pixels) : ((s.planes.setPage i page').setPixels i px).pageOf part = some (i, page') := by
  have hq := hp.setPage i page'
  refine (PlaneLaws.setPlanes hq (p := (s.planes.setPage i page').setPixels i px) (fun _ => Planes.part_setPixels ..) (hq.set_report i _)).pageOf_iff.2 ?_
  rw [State.setPlanes_planes, Planes.held_setPixels]
  exact held_of_pageOf (hp.pageOf_setPage hi page')

/-- The notes of the page being built. -/
theorem NoteLaws.composed (h : NoteLaws k s) {i : PlaneId} {page : Page} (hs : s.comp.state = .composing) (hi : s.composingPage = some (i, page)) :
    NoteListSafe page.notes ∧ NotesBelow (page.glyphCount + (s.comp.carry.length + k)) page.notes ∧ OpenList s.notes.openIds page.notes := by
  have hx := h.pages i _ (held_of_pageOf hi)
  exact ⟨hx.safe, hx.below, streamNotes_composing hs hi ▸ h.opened⟩

/-! ### Commits and appends -/

theorem NoteLaws.placeLine (hp : PlaneLaws b s) (h : NoteLaws k s) {i : PlaneId} {page : Page} (hi : s.composingPage = some (i, page)) (m : Nat) (o : LaidOut) :
    NoteLaws k (placeLine s i page m o) := by
  have hs : s.comp.state = .composing := hp.composingPage_isSome.1 (by rw [hi]; rfl)
  obtain ⟨hsafe, hbelow, hopen⟩ := h.composed hs hi
  obtain ⟨px, he⟩ := placeLine_eq s i page m o
  rw [he]
  exact .onPage (page := page.withLine o) hs (hp.pageOf_drawn hi _ px)
    (Planes.Each.setPixels (hp.each_setPage (page' := page.withLine o) hi h.pages (fun x hx hq => hq) ⟨hsafe, hbelow, fun e => absurd rfl e⟩) i px) hopen

/-- R124: each OPEN note moves to the continuation, and each other one ends below the first carried ordinal or among the carried entries. -/
theorem NoteLaws.pageFull (hp : PlaneLaws b s) (hc : ComposerLaws n s) (h : NoteLaws 0 s) : NoteLaws 0 s.pageFull := by
  cases hi : s.composingPage with
  | none =>
    unfold State.pageFull
    rw [hi]
    exact h
  | some p =>
    obtain ⟨i, page⟩ := p
    have hs : s.comp.state = .composing := hp.composingPage_isSome.1 (by rw [hi]; rfl)
    obtain ⟨hsafe, hbelow, hlen, hnodup, hmem⟩ := h.composed hs hi
    obtain ⟨-, hby, -⟩ := hc.composed hi
    have hcount : page.glyphCount = page.placements.length + s.comp.buffer.length := hby.1.trans hby.2.1.symm
    rw [pageFull_eq hi, hby.firstCarried]
    obtain ⟨hkept, hclosed⟩ := keptAtFull_below page.placements.length page.notes
    refine ⟨hp.each_ready hi h.pages (fun x hx hq => hq.other_of hx) ⟨hsafe.keptAtFull _, hkept, fun _ => hclosed⟩, hsafe.heldNotes _, fun _ => ?_,
      hlen, hnodup, fun id => ?_⟩
    · refine (heldNotes_below hbelow hsafe.2.2.2).mono ?_
      show _ ≤ (s.comp.buffer ++ s.comp.carry).length
      rw [List.length_append]
      omega
    · refine (hmem id).trans ⟨fun ⟨x, hx, hid, hopen⟩ => ?_, fun ⟨m, hm, hid, hopen⟩ => ?_⟩
      · obtain ⟨m, hm⟩ := Note.movedAtFull_open (c := page.placements.length) hopen
        obtain ⟨h1, -, -, -, h5, -⟩ := Note.movedAtFull_cases hm
        exact ⟨m, mem_heldNotes.2 ⟨x, hx, hm⟩, h1.trans hid, by rw [h5, hopen]; rfl⟩
      · obtain ⟨x, hx, hmoved⟩ := mem_heldNotes.1 hm
        obtain ⟨h1, -, -, -, h5, -⟩ := Note.movedAtFull_cases hmoved
        exact ⟨x, hx, h1.symm.trans hid, Option.map_eq_none_iff.1 (h5 ▸ hopen)⟩

theorem NoteLaws.commit (hp : PlaneLaws b s) (hc : ComposerLaws n s) (h : NoteLaws 0 s) (l : EndingLine) : NoteLaws 0 (s.commit l).state := by
  cases hi : s.composingPage with
  | none =>
    rw [commit_none hi]
    exact h
  | some p =>
    rw [commit_cases (i := p.1) (page := p.2) hi]
    split
    · exact h.pageFull hp hc
    · exact h.placeLine hp hi ..

/-- The laws that commits keep together. -/
abbrev NoteLaws.With (b : Bool) (n : Nat) (s : State) : Prop := (PlaneLaws b s ∧ ComposerLaws n s) ∧ NoteLaws 0 s

theorem NoteLaws.commit_with (h : NoteLaws.With b n s) {l : EndingLine} (hl : l.StartsBuffer s) : NoteLaws.With b n (s.commit l).state :=
  ⟨ComposerLaws.commit_both h.1 hl, h.2.commit h.1.1 h.1.2 l⟩

/-- R97: the entry that joins counts among the page's ordinals. -/
theorem NoteLaws.join (hp : PlaneLaws b s) (hc : ComposerLaws n s) (h : NoteLaws (k + 1) s) (hs : s.comp.state = .composing) (e : Entry) :
    NoteLaws k (s.join e) := by
  obtain ⟨⟨i, page⟩, hi⟩ := Option.isSome_iff_exists.1 (hp.composingPage_isSome.2 hs)
  obtain ⟨hsafe, hbelow, hopen⟩ := h.composed hs hi
  obtain ⟨p, hwith, -⟩ := withPara_eq s.comp
  rw [join_eq_of hi, Composer.joined, hwith]
  refine .onPage (page := page.joined (s.stamped e)) hs (hp.pageOf_setPage hi _)
    (hp.each_setPage hi h.pages (fun x hx hq => hq.other_of hx) ⟨hsafe, hbelow.mono ?_, fun e => absurd rfl e⟩) hopen
  have : page.glyphCount = s.comp.nextOrdinal := (hc.composed hi).2.1.1
  show page.glyphCount + (s.comp.carry.length + (k + 1)) ≤ s.comp.nextOrdinal + 1 + (s.comp.carry.length + k)
  omega

theorem NoteLaws.append (hp : PlaneLaws b s) (hc : ComposerLaws 255 s) (h : NoteLaws 1 s) (hs : s.comp.state = .composing)
    (ho : s.comp.nextOrdinal < 8192) (hl : s.comp.buffer.length + s.comp.carry.length < 256) (e : Entry) (cls : Nat) :
    NoteLaws 0 ((s.join e).afterAppend cls).state :=
  (afterAppend_keeps_starting (P := NoteLaws.With b 256) (fun _ _ hu hl => NoteLaws.commit_with hu hl) (fun _ hu => hu.1.2.measure) cls (join_buffer e)
    ⟨⟨hp.join e, hc.join hp hs ho hl e⟩, h.join hp hc hs e⟩).2

/-! ### Pages open and close -/

theorem OpenList.empty : OpenList [] [] := ⟨Nat.zero_le _, List.nodup_nil, fun id => ⟨fun h => (by cases h), fun ⟨n, hn, _⟩ => by cases hn⟩⟩

theorem OpenList.eq_nil {ids : List Nat} (h : OpenList ids []) : ids = [] :=
  List.eq_nil_iff_forall_not_mem.2 fun id hid => by
    obtain ⟨n, hn, -⟩ := (h.mem id).1 hid
    cases hn

/-- R123: the page's notes are closed with it. -/
theorem NoteLaws.closePage (hp : PlaneLaws b s) (h : NoteLaws 0 s) (hcarry : s.comp.carry = []) : NoteLaws 0 s.closePage := by
  unfold State.closePage
  split
  · exact h
  · next i page hi =>
    have hs : s.comp.state = .composing := hp.composingPage_isSome.1 (by rw [hi]; rfl)
    obtain ⟨hsafe, hbelow, -⟩ := h.composed hs hi
    rw [hcarry] at hbelow
    obtain ⟨hkept, hclosed⟩ := atClose_below hbelow
    exact ⟨hp.each_ready hi h.pages (fun x hx hq => hq.other_of hx) ⟨hsafe.atClose _, hkept, fun _ => hclosed⟩, .nil, fun _ n hn => (by cases hn), .empty⟩

/-- A fresh page opens with the notes that were held for it. -/
theorem NoteLaws.openOn (h : NoteLaws k s) {i : PlaneId} (hi : s.planes.available = some i) (hs : s.comp.state ≠ .composing)
    {page : Page} (hc : t.comp.state = .composing) (hplanes : t.planes = s.planes.openOn i page) (hg : page.glyphCount = 0) (hn : page.notes = streamNotes s)
    (hcarry : t.comp.carry = s.comp.carry) (ho : t.notes.openIds = s.notes.openIds) (hp' : PlaneLaws b' t) : NoteLaws k t := by
  have hheld : t.planes.held i = some { part := .composing, page } := by rw [hplanes, Planes.held_openOn, if_pos rfl]
  refine .onPage hc (hp'.pageOf_iff.2 hheld) ?_ (by rw [ho, hn]; exact h.opened)
  rw [hplanes, hcarry]
  exact h.pages.openOn hi (fun x hx hq => hq) ⟨hn ▸ h.stream, by rw [hg, hn]; exact (h.carried hs).mono (by simp), fun e => absurd rfl e⟩

theorem grant_cases (s : State) : s.grant = s ∨
    (∃ number frame i, s.comp.state = .waitPlane (.opening number frame) ∧ s.planes.available = some i ∧ s.grant = (s.openPage i number frame).release) ∨
    ∃ number frame notes i, s.comp.state = .waitPlane (.continuation number frame notes) ∧ s.planes.available = some i ∧
      s.grant = s.openContinuation i number frame notes := by
  unfold State.grant
  split
  · exact .inl rfl
  · split
    · next number frame i hs hi => exact .inr (.inl ⟨number, frame, i, hs, hi, rfl⟩)
    · next number frame notes i hs hi => exact .inr (.inr ⟨number, frame, notes, i, hs, hi, rfl⟩)
    · exact .inl rfl

theorem NoteLaws.grant (hp : PlaneLaws b s) (h : NoteLaws k s) : NoteLaws k s.grant := by
  have hp' := hp.grant
  rcases grant_cases s with he | ⟨number, frame, i, hs, hi, he⟩ | ⟨number, frame, notes, i, hs, hi, he⟩ <;> rw [he] at hp' ⊢
  · exact h
  · refine h.openOn (page := Page.fresh number frame false []) hi (by rw [hs]; exact fun e => by cases e) rfl rfl rfl ?_ rfl rfl hp'
    unfold streamNotes
    rw [hs]
    rfl
  · refine h.openOn (page := Page.fresh number frame true notes) hi (by rw [hs]; exact fun e => by cases e) rfl rfl rfl ?_ rfl rfl hp'
    unfold streamNotes
    rw [hs]
    rfl

/-- Where no page is being built nor waits to be continued, the stream has no notes. -/
theorem streamNotes_eq_nil (hp : PlaneLaws b s) (hw : s.comp.state.waiting = false) (hn : s.comp.state = .composing → s.composingPage = none) :
    s.comp.state ≠ .composing ∧ streamNotes s = [] := by
  have hs : s.comp.state ≠ .composing := fun e => hp.composingPage_none.1 (hn e) e
  refine ⟨hs, ?_⟩
  unfold streamNotes
  cases h : s.comp.state with
  | composing => exact absurd h hs
  | idle => rfl
  | waitPlane p =>
    rw [h] at hw
    cases hw

/-! ### Notes open and close -/

theorem noteOpenRefusal_none {page : Page} {id : Nat} (h : noteOpenRefusal s page id = none) :
    id ≠ 0 ∧ (∀ n ∈ page.notes, n.id ≠ id) ∧ s.notes.openIds.length < 8 ∧ page.notes.length < 64 := by
  unfold noteOpenRefusal at h
  split_ifs at h with h1 h2 h3 h4
  exact ⟨h1, findNote_eq_none.1 (by simpa using h2), Nat.lt_of_not_le h3, Nat.lt_of_not_le h4⟩

theorem tone_safe (style : NoteStyle) (tone : Nat) :
    if style = .shade then 1 ≤ toneOf style tone ∧ toneOf style tone ≤ 11 else toneOf style tone = 0 := by
  unfold toneOf clampNat
  split
  · split_ifs <;> omega
  · rfl

/-- R118: a note opens at the next ordinal. -/
theorem NoteLaws.openNote (hp : PlaneLaws b s) (hc : ComposerLaws n s) (h : NoteLaws 0 s) {i : PlaneId} {page : Page} {x : Note} {tone : Nat}
    (hs : s.comp.state = .composing) (hi : s.composingPage = some (i, page))
    (hx : x.start = s.comp.nextOrdinal ∧ x.stop = none ∧ x.tone = toneOf x.style tone) (hok : noteOpenRefusal s page x.id = none) :
    NoteLaws 0 ((s.setPlanes (s.planes.setPage i { page with notes := insertNote x page.notes })).setNotes
      { s.notes with openIds := s.notes.openIds ++ [x.id] }) := by
  obtain ⟨hstart, hstop, htone⟩ := hx
  obtain ⟨hid, hfresh, hroom, hlen⟩ := noteOpenRefusal_none hok
  obtain ⟨hsafe, hbelow, hopenlen, hnodup, hmem⟩ := h.composed hs hi
  have hg : page.glyphCount = s.comp.nextOrdinal := (hc.composed hi).2.1.1
  have hxsafe : x.Safe := ⟨hid, by rw [htone]; exact tone_safe .., fun e he => by rw [hstop] at he; cases he⟩
  refine .onPage hs (hp.pageOf_setPage hi _) (hp.each_setPage hi h.pages (fun y hy hq => hq)
    ⟨hsafe.insert hlen hfresh hxsafe, hbelow.insert (notesBelow_of (fun m hm e he => ?_) fun m hm he => ?_), fun e => absurd rfl e⟩) ⟨?_, ?_, fun id => ?_⟩
  · rw [List.mem_singleton.1 hm, hstop] at he
    cases he
  · rw [List.mem_singleton.1 hm, hstart, ← hg]
    exact Nat.le_add_right _ _
  · show (s.notes.openIds ++ [x.id]).length ≤ 8
    rw [List.length_append, List.length_singleton]
    exact hroom
  · refine List.nodup_append.2 ⟨hnodup, List.nodup_singleton _, fun a ha c hc => ?_⟩
    rw [List.mem_singleton.1 hc]
    rintro rfl
    obtain ⟨m, hm, hmid, -⟩ := (hmem _).1 ha
    exact hfresh m hm hmid
  · show id ∈ s.notes.openIds ++ [x.id] ↔ ∃ m ∈ insertNote x page.notes, m.id = id ∧ m.stop = none
    simp only [List.mem_append, List.mem_singleton, hmem, mem_insertNote]
    constructor
    · rintro (⟨m, hm, hmid, hmo⟩ | rfl)
      · exact ⟨m, .inr hm, hmid, hmo⟩
      · exact ⟨x, .inl rfl, rfl, hstop⟩
    · rintro ⟨m, rfl | hm, hmid, hmo⟩
      · exact .inr hmid.symm
      · exact .inl ⟨m, hm, hmid, hmo⟩

/-- A note, ended if it has the id. -/
def endNote (id stop : Nat) (m : Note) : Note := if m.id = id then { m with stop := some stop } else m

theorem endNote_same (id stop : Nat) (m : Note) : (endNote id stop m).id = m.id ∧ (endNote id stop m).start = m.start := by
  unfold endNote
  split <;> exact ⟨rfl, rfl⟩

theorem mem_map_endNote {id stop : Nat} {m : Note} (hm : m ∈ l.map (endNote id stop)) :
    (∃ x ∈ l, x.id = id ∧ m = { x with stop := some stop }) ∨ m ∈ l ∧ m.id ≠ id := by
  obtain ⟨x, hx, rfl⟩ := List.mem_map.1 hm
  unfold endNote
  split
  · next h => exact .inl ⟨x, hx, h, rfl⟩
  · next h => exact .inr ⟨hx, h⟩

/-- R120: the note closed is the OPEN one of its id. -/
theorem closeNote_open {id next : Nat} (hsafe : NoteListSafe l) {x : Note} (hx : x ∈ l) (hid : x.id = id) :
    closeNote next id l = if x.start < next then l.map (endNote id (next - 1)) else eraseNote id l := by
  have hf : findNote id l = some x := by
    cases hf : findNote id l with
    | none => exact absurd hid (findNote_eq_none.1 hf x hx)
    | some y =>
      obtain ⟨hy, hyid⟩ := findNote_eq_some hf
      rw [hsafe.inj hy hx (hyid.trans hid.symm)]
  unfold closeNote
  rw [hf]
  rfl

theorem NoteLaws.closeNote (hp : PlaneLaws b s) (hc : ComposerLaws n s) (h : NoteLaws 0 s) {id : Nat} (hs : s.comp.state = .composing)
    (hid : id ∈ s.notes.openIds) :
    NoteLaws 0 ((s.mapComposingPage fun page => { page with notes := Machine.closeNote s.comp.nextOrdinal id page.notes }).setNotes
      { s.notes with openIds := s.notes.openIds.erase id }) := by
  obtain ⟨⟨i, page⟩, hi⟩ := Option.isSome_iff_exists.1 (hp.composingPage_isSome.2 hs)
  obtain ⟨hsafe, hbelow, hopenlen, hnodup, hmem⟩ := h.composed hs hi
  have hg : page.glyphCount = s.comp.nextOrdinal := (hc.composed hi).2.1.1
  obtain ⟨x, hx, hxid, hxo⟩ := (hmem id).1 hid
  have hmap : (s.mapComposingPage fun page => { page with notes := Machine.closeNote s.comp.nextOrdinal id page.notes }) =
      s.setPlanes (s.planes.setPage i { page with notes := Machine.closeNote s.comp.nextOrdinal id page.notes }) := by
    unfold State.mapComposingPage
    rw [hi]
  rw [hmap]
  have hlen : (s.notes.openIds.erase id).length ≤ 8 := Nat.le_trans (List.length_erase_le ..) hopenlen
  have hold : ∀ j, j ∈ s.notes.openIds.erase id ↔ j ≠ id ∧ ∃ m ∈ page.notes, m.id = j ∧ m.stop = none := fun j => by
    rw [hnodup.mem_erase_iff, hmem]
  have hkeep {l : List Note} (hl : Machine.closeNote s.comp.nextOrdinal id page.notes = l) (h1 : NoteListSafe l)
      (h2 : NotesBelow (page.glyphCount + (s.comp.carry.length + 0)) l) (h3 : ∀ m, m.stop = none → (m ∈ l ↔ m ∈ page.notes ∧ m.id ≠ id)) :
      NoteLaws 0 ((s.setPlanes (s.planes.setPage i { page with notes := Machine.closeNote s.comp.nextOrdinal id page.notes })).setNotes
        { s.notes with openIds := s.notes.openIds.erase id }) := by
    rw [hl]
    refine .onPage hs (hp.pageOf_setPage hi _) (hp.each_setPage hi h.pages (fun y hy hq => hq) ⟨h1, h2, fun e => absurd rfl e⟩)
      ⟨hlen, hnodup.erase id, fun j => (hold j).trans ⟨?_, ?_⟩⟩
    · rintro ⟨hj, m, hm, rfl, hmo⟩
      exact ⟨m, (h3 m hmo).2 ⟨hm, hj⟩, rfl, hmo⟩
    · rintro ⟨m, hm, rfl, hmo⟩
      obtain ⟨hm, hne⟩ := (h3 m hmo).1 hm
      exact ⟨hne, m, hm, rfl, hmo⟩
  have hclose := closeNote_open (next := s.comp.nextOrdinal) hsafe hx hxid
  split at hclose
  · next hlt =>
    refine hkeep hclose ?_ (notesBelow_of (fun m hm e he => ?_) fun m hm he => ?_) fun m hmo => ⟨fun hm => ?_, fun ⟨hm, hne⟩ => ?_⟩
    · rw [← List.filterMap_eq_map]
      refine hsafe.filterMap (fun m m' hm => by cases hm; exact endNote_same ..) fun m hm m' hm' hmsafe => ?_
      cases hm'
      show (endNote id (s.comp.nextOrdinal - 1) m).Safe
      unfold endNote
      split
      · next he =>
        rw [hsafe.inj hm hx (he.trans hxid.symm)] at hmsafe ⊢
        exact ⟨hmsafe.1, hmsafe.2.1, fun e he => by cases he; exact Nat.le_sub_one_of_lt hlt⟩
      · exact hmsafe
    · rcases mem_map_endNote hm with ⟨y, -, -, rfl⟩ | ⟨hm, -⟩
      · cases he
        omega
      · exact hbelow.stop_lt hm he
    · rcases mem_map_endNote hm with ⟨y, -, -, rfl⟩ | ⟨hm, -⟩
      · cases he
      · exact hbelow.start_le hm he
    · rcases mem_map_endNote hm with ⟨y, -, -, rfl⟩ | hm
      · cases hmo
      · exact hm
    · exact List.mem_map.2 ⟨m, hm, if_neg hne⟩
  · next hge =>
    exact hkeep hclose (hsafe.erase id) (hbelow.subset fun m hm => (mem_eraseNote.1 hm).1) fun m _ => mem_eraseNote

/-! ### Live paints -/

theorem paintRefusal_none {i : PlaneId} {page : Page} {r : Record} (h : paintRefusal (some (i, page)) r = none) :
    r.u16 4 ≠ 0 ∧ paintStart r < page.glyphCount ∧ (findNote (r.u16 4) page.notes = none → page.notes.length < 64) := by
  unfold paintRefusal at h
  dsimp only at h
  split_ifs at h with h1 h2 h3 h4
  refine ⟨h1, Nat.lt_of_not_le h3, fun hf => Nat.lt_of_not_le fun hle => h4 ?_⟩
  rw [hf]
  exact Bool.and_eq_true_iff.2 ⟨rfl, decide_eq_true hle⟩

/-- The front page's notes are rewritten, all of them CLOSED. -/
theorem NoteLaws.rewrite (hp : PlaneLaws b s) (h : NoteLaws k s) {i : PlaneId} {page : Page} (hi : s.frontPage = some (i, page)) {notes : List Note}
    (hsafe : NoteListSafe notes) (hbelow : NotesBelow page.glyphCount notes) (hclosed : ∀ n ∈ notes, n.stop.isSome = true) :
    NoteLaws k (s.setPlanes (s.planes.setPage i { page with notes })) := by
  have hstream : streamNotes (s.setPlanes (s.planes.setPage i { page with notes })) = streamNotes s := by
    refine streamNotes_congr rfl (Option.ext fun ⟨j, q⟩ => ?_)
    have hheld : (s.planes.setPage i { page with notes }).held j = some { part := .composing, page := q } ↔
        s.planes.held j = some { part := .composing, page := q } := by
      rw [Planes.held_setPage]
      split
      · next e =>
        rw [e, held_of_pageOf hi]
        simp
      · rfl
    exact (hp.setPage i { page with notes }).pageOf_iff.trans (hheld.trans hp.pageOf_iff.symm)
  refine ⟨h.pages.setPage hi fun _ => ⟨hsafe, hbelow, fun _ => hclosed⟩, hstream ▸ h.stream, ?_, ?_⟩ <;> rw [hstream]
  · exact h.carried
  · exact h.opened

/-- The notes of the front page. -/
theorem NoteLaws.front (h : NoteLaws k s) {i : PlaneId} {page : Page} (hi : s.frontPage = some (i, page)) :
    NoteListSafe page.notes ∧ NotesBelow page.glyphCount page.notes ∧ ∀ n ∈ page.notes, n.stop.isSome = true := by
  obtain ⟨h1, h2, h3⟩ := h.pages i _ (held_of_pageOf hi)
  exact ⟨h1, h2, h3 fun e => by cases e⟩

theorem NoteLaws.eraseNote (hp : PlaneLaws b s) (h : NoteLaws k s) {i : PlaneId} {page : Page} (hi : s.frontPage = some (i, page)) (id : Nat) :
    NoteLaws k (s.setPlanes (s.planes.setPage i { page with notes := Machine.eraseNote id page.notes })) := by
  obtain ⟨hsafe, hbelow, hclosed⟩ := h.front hi
  exact h.rewrite hp hi (hsafe.erase id) (hbelow.subset fun n hn => (mem_eraseNote.1 hn).1) fun n hn => hclosed n (mem_eraseNote.1 hn).1

/-- R127: a painted note replaces the one of its id. -/
theorem NoteLaws.paintNote (hp : PlaneLaws b s) (h : NoteLaws k s) {i : PlaneId} {page : Page} (hi : s.frontPage = some (i, page)) {r : Record}
    (style : NoteStyle) (hok : paintRefusal (some (i, page)) r = none) :
    NoteLaws k (s.setPlanes (s.planes.setPage i { page with
      notes := insertNote (paintedNote r style page.glyphCount) (Machine.eraseNote (r.u16 4) page.notes) })) := by
  obtain ⟨hsafe, hbelow, hclosed⟩ := h.front hi
  obtain ⟨hid, hstart, hroom⟩ := paintRefusal_none hok
  have hlen : (Machine.eraseNote (r.u16 4) page.notes).length < 64 := by
    cases hf : findNote (r.u16 4) page.notes with
    | none => exact Nat.lt_of_le_of_lt (List.length_filter_le ..) (hroom hf)
    | some x =>
      obtain ⟨hx, hxid⟩ := findNote_eq_some hf
      exact Nat.lt_of_lt_of_le (eraseNote_length_lt hx hxid) hsafe.1
  have hends : paintStart r ≤ min (paintEnd r) (page.glyphCount - 1) ∧ min (paintEnd r) (page.glyphCount - 1) < page.glyphCount := by
    have : paintStart r ≤ paintEnd r := Nat.le_trans (Nat.min_le_left _ _) (Nat.le_max_left _ _)
    omega
  refine h.rewrite hp hi ((hsafe.erase _).insert hlen (fun n hn => (mem_eraseNote.1 hn).2) ⟨hid, tone_safe .., fun e he => ?_⟩)
    ((hbelow.subset fun n hn => (mem_eraseNote.1 hn).1).insert (notesBelow_of (fun m hm e he => ?_) fun m hm he => ?_)) fun n hn => ?_
  · cases he
    exact hends.1
  · rw [List.mem_singleton.1 hm] at he
    cases he
    exact hends.2
  · rw [List.mem_singleton.1 hm] at he
    cases he
  · rcases mem_insertNote.1 hn with rfl | hn
    · rfl
    · exact hclosed n (mem_eraseNote.1 hn).1

/-! ### The moves -/

/-- R114 and R125: the stream has no notes any more. -/
theorem NoteLaws.streamReset (hp : PlaneLaws b s) (h : NoteLaws k s) (hc : t.comp = Composer.reset) (hplanes : t.planes = s.planes.dropComposing)
    (ho : t.notes.openIds = []) : NoteLaws k t := by
  have hstream : streamNotes t = [] := by
    unfold streamNotes
    rw [hc]
    rfl
  refine ⟨fun i x hx => ?_, hstream ▸ .nil, fun _ => hstream ▸ fun n hn => (by cases hn), by rw [ho, hstream]; exact .empty⟩
  rw [hplanes] at hx
  exact (h.pages.fewer (Planes.fewer_dropComposing _) (fun x y hpage hpart => Held.Noted.congr hpage hpart) i x hx).other_of
    (hp.not_composing_of_dropped hx)

theorem NoteLaws.move {o : Origin} (m : Move o s t) (hp : PlaneLaws b s) (hc : ComposerLaws 255 s) (h : NoteLaws 0 s) : NoteLaws 0 t := by
  have hcommit (u : State) (l : EndingLine) (hu : NoteLaws.With b 255 u) (hl : l.StartsBuffer u) := NoteLaws.commit_with hu hl
  have hp' := hp.move m
  cases m with
  | appendNew code cls hs hcarry ho =>
    refine NoteLaws.append hp hc ⟨h.pages.mono fun x hx => hx.mono (Nat.le_succ _), h.stream, h.carried, h.opened⟩ hs ho ?_ _ cls
    rw [hcarry]
    exact Nat.lt_succ_of_le hc.comp.buffer
  | reappend e rest hs hcarry ho =>
    obtain ⟨hu, hroom⟩ := hc.takeCarry hp hs hcarry
    have hrest : NoteLaws 1 (s.setComp { s.comp with carry := rest }) := by
      refine ⟨h.pages.mono fun x hx => ?_, h.stream, fun e => absurd hs e, h.opened⟩
      rw [hcarry] at hx
      exact hx
    exact hrest.append (hp.setComp (c := { s.comp with carry := rest }) rfl) hu hs ho hroom e e.cls
  | pageFull => exact h.pageFull hp hc
  | breakTest => exact (breakTest_keeps_starting (P := NoteLaws.With b 255) hcommit (fun _ hu => hu.1.2.measure) ⟨⟨hp, hc⟩, h⟩).2
  | endParagraph hs hcarry =>
    rcases endParagraph_state s with he | ⟨hl, u, rfl, he | he⟩ <;> rw [he]
    · exact h.congr rfl rfl rfl rfl
    · exact h.commit hp hc _
    · exact (h.commit hp hc _).congr rfl rfl rfl rfl
  | closePage hcarry => exact h.closePage hp hcarry
  | openPage i number frame hf hi hw hn =>
    obtain ⟨hs, hnil⟩ := streamNotes_eq_nil hp hw hn
    exact h.openOn hi hs rfl rfl rfl hnil.symm rfl rfl hp'
  | awaitPlane number frame _ hw hn =>
    obtain ⟨-, hnil⟩ := streamNotes_eq_nil hp hw hn
    have hopen := h.opened
    rw [hnil] at hopen
    exact ⟨h.pages, .nil, fun _ n hn => (by cases hn), hopen⟩
  | grant => exact h.grant hp
  | freeReady i => exact h.quiet hp hp' (quiet_setPlanes (Planes.fewer_free _ _))
  | showReady i hi => exact h.quiet hp hp' (showReady_quiet hi)
  | streamReset => exact h.streamReset hp rfl rfl rfl
  | openNote i page x tone hs hi hx hok => exact h.openNote hp hc hs hi hx hok
  | closeNote id hs hid => exact h.closeNote hp hc hs hid
  | paintNote r i page style hi hok => exact h.paintNote hp hi style hok
  | eraseNote id i page hi => exact h.eraseNote hp hi id
  | drawHeld x => exact h.quiet hp hp' (drawHeld_quiet s x)
  | drawTested x => exact h.quiet hp hp' (drawTested_quiet s x)
  | queueHold => exact h.quiet hp hp' (queueHold_quiet s)
  | dispatch _ _ hd => exact h.quiet hp hp' (dispatchAbove_quiet hd)
  | finish i => exact h.quiet hp hp' (finish_quiet s i)
  | timeout i => exact h.quiet hp hp' (timeout_quiet s i)
  | abort => exact h.quiet hp hp' (abort_quiet s)
  | beginTable | faultTable | defineGlyph | endTable | dropTable =>
    rw [setTable_eq]
    exact h.congr rfl rfl rfl rfl
  | _ => exact h.congr rfl rfl rfl rfl

/-- No page and no note. -/
theorem NoteLaws.reset (h : execPowerOnReset s = .next t) : NoteLaws k t := by
  cases h
  refine ⟨fun i x hx => ?_, .nil, fun _ n hn => (by cases hn), .empty⟩
  cases i <;> cases hx

end Sys2Proof.Machine
end

section

open Sys2Proof Sys2Proof.Machine

/-- Settles O57: notes open at the next ordinal, end below it, and move with the carried entries; the open-note list follows the OPEN notes of the stream's page. -/
theorem stepKeepsNoteSafe : Obligations.StepKeepsNoteSafe := by
  intro s t hp hc hn hstep
  rw [noteSafe_iff] at hn ⊢
  exact (step_keeps_composed (P := NoteLaws 0) (fun _ _ _ m hp hc h => h.move m hp hc) (fun _ _ h => h.congr rfl rfl rfl rfl) (fun _ _ hr _ => .reset hr)
    (fun u i hp h => h.quiet hp (hp.sendEnded_untested i) (sendEnded_quiet u i)) (fun _ h => h.congr rfl rfl rfl rfl) ⟨hp, hc, hn⟩ hstep).2

end

section
/-! PROOFS. Chapter 1: ring, queue and framing. Whatever is not an event of the link leaves framing and queue alone and can only shorten the ring; a command
that is held keeps the slot it had in the queue. -/

namespace Sys2Proof.Machine

open Sys2Proof

variable {o : Origin} {s t u : State}

/-- What an event that is not the link's may do to link, ring and queue. -/
structure LinkKept (o : Origin) (s t : State) : Prop where
  pending : t.pending = s.pending
  framing : t.link.framing = s.link.framing
  ring : t.ring <:+ s.ring
  queued : t.cmd.queued = s.cmd.queued
  streamHold : t.cmd.streamHold = s.cmd.streamHold
  executing : o = .command ∨ t.cmd.executing = s.cmd.executing ∨ t.cmd.executing = none

theorem LinkKept.of_eq (hp : t.pending = s.pending) (hl : t.link = s.link) (hr : t.ring = s.ring) (hc : t.cmd = s.cmd) :
    LinkKept o s t := ⟨hp, hl ▸ rfl, hr ▸ List.suffix_rfl, hc ▸ rfl, hc ▸ rfl, .inr (.inl (hc ▸ rfl))⟩

theorem LinkKept.refl (s : State) : LinkKept o s s := .of_eq rfl rfl rfl rfl

theorem LinkKept.trans (h : LinkKept o s t) (k : LinkKept o t u) : LinkKept o s u := by
  refine ⟨k.pending.trans h.pending, k.framing.trans h.framing, k.ring.trans h.ring, k.queued.trans h.queued, k.streamHold.trans h.streamHold, ?_⟩
  rcases k.executing with e | e | e
  · exact .inl e
  · rw [e]
    exact h.executing
  · exact .inr (.inr e)

theorem LinkKept.of_unhold (h : LinkKept o (s.setCmd { s.cmd with executing := none }) t) (he : t.cmd.executing = none) : LinkKept o s t :=
  ⟨h.pending, h.framing, h.ring, h.queued, h.streamHold, .inr (.inr he)⟩

theorem LinkKept.of_frame (h : ComposeFrame s t) : LinkKept o s t := by
  obtain ⟨c, p, e, rfl⟩ := h
  exact .of_eq rfl rfl rfl rfl

theorem drawHeld_linkKept (s : State) (x : HeldPaint) : LinkKept o s (s.drawHeld x) := by
  obtain ⟨q, n, p, hd⟩ := drawHeld_frame s x
  exact .of_eq (by rw [hd]; rfl) (by rw [hd]; rfl) (by rw [hd]; rfl) (by rw [hd]; rfl)

theorem grant_linkKept (s : State) : LinkKept o s s.grant := by
  rcases grant_cases s with he | ⟨number, frame, i, -, -, he⟩ | ⟨number, frame, notes, i, -, -, he⟩ <;> rw [he]
  · exact .refl s
  · exact ⟨rfl, rfl, List.tail_suffix _, rfl, rfl, .inr (.inl rfl)⟩
  · exact .of_eq rfl rfl rfl rfl

theorem showReady_linkKept (s : State) (i : PlaneId) : LinkKept o s (s.showReady i) := by
  obtain ⟨p, n, u, rfl, ⟨-, he⟩ | ⟨x, -, he⟩⟩ := showReady_frame s i
  · rw [he]
    exact .of_eq rfl rfl rfl rfl
  · rw [he]
    exact ⟨rfl, rfl, List.suffix_rfl, rfl, rfl, .inr (.inr rfl)⟩

/-- Every move but the link's own keeps link, ring and queue. -/
theorem Move.linkKept (m : Move o s t) (ho : o = .link → ∀ l x q n, t ≠ ((s.setLink l).setRing x).setCmd { s.cmd with queued := q, streamHold := n }) :
    LinkKept o s t := by
  cases m with
  | intake hl l x q n => exact absurd rfl (ho hl l x q n)
  | reply l hl => exact ⟨rfl, hl, List.suffix_rfl, rfl, rfl, .inr (.inl rfl)⟩
  | release => exact ⟨rfl, rfl, List.tail_suffix _, rfl, rfl, .inr (.inl rfl)⟩
  | beginTable | faultTable | defineGlyph | endTable | dropTable =>
    obtain ⟨g, hg⟩ := setTable_frame s _ _
    exact .of_eq (by rw [hg]; rfl) (by rw [hg]; rfl) (by rw [hg]; rfl) (by rw [hg]; rfl)
  | appendNew code cls =>
    exact .of_frame ((join_frame s _).trans (afterAppend_frame _ cls))
  | reappend e rest =>
    have htake : ComposeFrame s (s.setComp { s.comp with carry := rest }) := ⟨_, s.planes, s.events, rfl⟩
    exact .of_frame ((ComposeFrame.trans htake (join_frame _ e)).trans (afterAppend_frame _ e.cls))
  | pageFull => exact .of_frame (pageFull_frame s)
  | breakTest => exact .of_frame (breakTest_frame s)
  | endParagraph => exact .of_frame (endParagraph_frame s)
  | closePage =>
    unfold State.closePage
    split
    · exact .refl s
    · exact .of_eq rfl rfl rfl rfl
  | grant => exact grant_linkKept s
  | showReady i => exact showReady_linkKept s i
  | closeNote id =>
    obtain ⟨p, hp⟩ := mapComposingPage_eq s fun page => { page with notes := Machine.closeNote s.comp.nextOrdinal id page.notes }
    rw [hp]
    exact .of_eq rfl rfl rfl rfl
  | drawHeld x => exact drawHeld_linkKept s x
  | hold hc => exact ⟨rfl, rfl, List.suffix_rfl, rfl, rfl, .inl hc⟩
  | drawTested x =>
    refine LinkKept.of_unhold (drawHeld_linkKept _ x) ?_
    obtain ⟨q, n, p, hd⟩ := drawHeld_frame (s.setCmd { s.cmd with executing := none }) x
    rw [hd]
    rfl
  | unhold => exact ⟨rfl, rfl, List.suffix_rfl, rfl, rfl, .inr (.inr rfl)⟩
  | queueHold =>
    obtain ⟨q, hq⟩ := queueHold_frame s
    exact .of_eq (by rw [hq]) (by rw [hq]) (by rw [hq]) (by rw [hq])
  | dispatch _ _ hd =>
    obtain ⟨i, plane, k, r, -, -, -, rfl⟩ := dispatchAbove_eq_some hd
    exact .of_eq rfl rfl rfl rfl
  | _ => exact .of_eq rfl rfl rfl rfl

theorem Moves.linkKept (ho : o ≠ .link) (m : Moves o s t) : LinkKept o s t :=
  m.keep (P := LinkKept o s) (fun _ _ m h => h.trans (m.linkKept fun e => absurd e ho)) (.refl s)

theorem ringBytes_le_of_suffix {a b : List Record} (h : a <:+ b) : ringBytes a ≤ ringBytes b := by
  obtain ⟨c, rfl⟩ := h
  simp [ringBytes]

/-- The executing slot of a queue. -/
def CommandUnit.inHand (c : CommandUnit) : Nat := if c.executing.isSome then 1 else 0

theorem slotsTaken_eq (s : State) : slotsTaken s = s.cmd.queued.length + CommandUnit.inHand s.cmd + if s.link.framing.reservesSlot then 1 else 0 := rfl

theorem CommandUnit.inHand_le (c : CommandUnit) : CommandUnit.inHand c ≤ 1 := by
  unfold CommandUnit.inHand
  split <;> omega

/-- What keeps link, ring and queue keeps their laws, if there is a slot for a command that may come to be held. -/
theorem LinkSafe.kept (h : LinkSafe s) (k : LinkKept o s t)
    (hroom : o = .command → s.cmd.queued.length + 1 + (if s.link.framing.reservesSlot then 1 else 0) ≤ 4) : LinkSafe t := by
  obtain ⟨hf, hfill, hslots, hhold, hqueued, hring⟩ := h
  refine ⟨k.framing ▸ hf, ?_, ?_, ?_, k.queued ▸ hqueued, fun r hr => hring r (k.ring.subset hr)⟩
  · have := ringBytes_le_of_suffix k.ring
    unfold fill at hfill ⊢
    rw [k.framing]
    omega
  · rw [slotsTaken_eq] at hslots ⊢
    rw [k.queued, k.framing]
    rcases k.executing with e | e | e
    · have := hroom e
      have := CommandUnit.inHand_le t.cmd
      omega
    · unfold CommandUnit.inHand at hslots ⊢
      rw [e]
      exact hslots
    · unfold CommandUnit.inHand
      rw [e]
      simp only [Option.isSome_none, Bool.false_eq_true, if_false]
      omega
  · rw [k.streamHold, k.queued]
    exact hhold

theorem LinkSafe.congr (h : LinkSafe s) (hl : t.link.framing = s.link.framing) (hr : t.ring = s.ring) (hc : t.cmd = s.cmd) : LinkSafe t := by
  unfold LinkSafe fill slotsTaken at *
  rw [hl, hr, hc]
  exact h

/-! ### The Command Unit takes a command -/

theorem LinkSafe.taking (h : LinkSafe s) {r : Record} {rest : List Record} (hc : Commands s r rest) :
    LinkSafe (s.taking rest (if r.kind = kindStreamReset then s.cmd.streamHold - 1 else s.cmd.streamHold)) ∧
      rest.length + 1 + (if s.link.framing.reservesSlot then 1 else 0) ≤ 4 := by
  obtain ⟨hf, hfill, hslots, hhold, hqueued, hring⟩ := h
  obtain ⟨hq, he⟩ := hc
  rw [slotsTaken_eq, hq, CommandUnit.inHand, he] at hslots
  rw [hq] at hhold hqueued
  simp only [List.length_cons, Option.isSome_none, Bool.false_eq_true, if_false] at hslots
  refine ⟨⟨hf, hfill, ?_, ?_, fun x hx => hqueued x (List.mem_cons_of_mem _ hx), hring⟩, by omega⟩
  · rw [slotsTaken_eq]
    show rest.length + CommandUnit.inHand { s.cmd with queued := rest, streamHold := _ } + (if s.link.framing.reservesSlot then 1 else 0) ≤ 4
    have := CommandUnit.inHand_le { s.cmd with queued := rest, streamHold := if r.kind = kindStreamReset then s.cmd.streamHold - 1 else s.cmd.streamHold }
    omega
  · show (if r.kind = kindStreamReset then s.cmd.streamHold - 1 else s.cmd.streamHold) = _
    rw [hhold, List.filter_cons]
    split_ifs with hk hk' hk'
    · rfl
    · exact absurd (beq_iff_eq.2 hk) hk'
    · exact absurd (beq_iff_eq.1 hk') hk
    · rfl

/-! ### The link's events -/

/-- Framing that reserves neither ring nor slot may be entered at any time. -/
theorem LinkSafe.setFraming (h : LinkSafe s) {l : Link} (hf : l.framing.Safe) (hr : l.framing.reserved = 0) (hs : l.framing.reservesSlot = false) :
    LinkSafe (s.setLink l) := by
  obtain ⟨-, hfill, hslots, hhold, hqueued, hring⟩ := h
  refine ⟨hf, ?_, ?_, hhold, hqueued, hring⟩
  · show ringBytes s.ring + l.framing.reserved ≤ 32768
    unfold fill at hfill
    omega
  · rw [slotsTaken_eq] at hslots ⊢
    show s.cmd.queued.length + CommandUnit.inHand s.cmd + (if l.framing.reservesSlot then 1 else 0) ≤ 4
    rw [hs, if_neg Bool.false_ne_true]
    omega

theorem LinkSafe.refuseHeader (h : LinkSafe s) (why : CommandReason) (kind tag : Byte) {len : Nat} (hlen : 4 ≤ len) :
    LinkSafe (s.refuseHeader why kind tag len) := by
  suffices hs : LinkSafe (s.setLink { s.link with framing := if len = 4 then .between else .skipCommand (len - 4) }) from
    LinkSafe.congr hs rfl rfl rfl
  split
  · exact h.setFraming trivial rfl rfl
  · exact h.setFraming (l := { s.link with framing := .skipCommand (len - 4) }) (show 0 < len - 4 by omega) rfl rfl

/-- R5: a whole record enters the ring, in the bytes that are free or were reserved for it. -/
theorem LinkSafe.enterRing (h : LinkSafe s) {r : Record} (hlen : r.length ≤ 2048) (hroom : ringBytes s.ring + r.length ≤ 32768) :
    LinkSafe (s.enterRing r) := by
  obtain ⟨-, -, hslots, hhold, hqueued, hring⟩ := h
  refine ⟨trivial, ?_, ?_, hhold, hqueued, fun x hx => ?_⟩
  · show ringBytes (s.ring ++ [r]) + 0 ≤ 32768
    simpa [ringBytes] using hroom
  · rw [slotsTaken_eq] at hslots
    show s.cmd.queued.length + CommandUnit.inHand s.cmd + 0 ≤ 4
    omega
  · rcases List.mem_append.1 hx with hx | hx
    · exact hring x hx
    · rw [List.mem_singleton.1 hx]
      exact hlen

/-- R8 and R11: a whole command is queued in a slot that is free or was reserved for it. -/
theorem LinkSafe.acceptCommand (h : LinkSafe s) {r : Record} (hlen : commandLength r.kind = some r.length)
    (hroom : s.cmd.queued.length + CommandUnit.inHand s.cmd < 4) : LinkSafe (s.acceptCommand r) := by
  obtain ⟨-, hfill, -, hhold, hqueued, hring⟩ := h
  have hmem : ∀ x ∈ s.cmd.queued ++ [r], commandLength x.kind = some x.length := fun x hx => by
    rcases List.mem_append.1 hx with hx | hx
    · exact hqueued x hx
    · rw [List.mem_singleton.1 hx]
      exact hlen
  have hslots : (s.cmd.queued ++ [r]).length + CommandUnit.inHand s.cmd + 0 ≤ 4 := by
    rw [List.length_append, List.length_singleton]
    omega
  by_cases hr : r.kind = kindStreamReset
  · rw [acceptCommand_streamReset hr]
    refine ⟨trivial, Nat.zero_le _, hslots, ?_, hmem, fun x hx => by cases hx⟩
    simp [List.filter_append, hr, hhold]
  · rw [acceptCommand_other hr]
    refine ⟨trivial, ?_, hslots, ?_, hmem, hring⟩
    · show ringBytes s.ring + 0 ≤ 32768
      unfold fill at hfill
      omega
    · rw [List.filter_append, List.filter_singleton, beq_false_of_ne hr, cond_false, List.append_nil]
      exact hhold

/-- R3, R4 and R8: a judged header reserves only what is free. -/
theorem LinkSafe.judgeHeader (h : LinkSafe s) (hf : s.link.framing.reserved = 0) (hs : s.link.framing.reservesSlot = false) (kind tag lo hi : Byte) :
    LinkSafe (s.judgeHeader kind tag lo hi) := by
  generalize hl : lo.toNat + 256 * hi.toNat = len
  have hskip (e : EdgeEvent) : LinkSafe ((s.setLink { s.link with framing := .skipRest }).raise e) :=
    LinkSafe.congr (h.setFraming (l := { s.link with framing := .skipRest }) trivial rfl rfl) rfl rfl rfl
  by_cases hbad : HeaderUnframed kind len
  · rw [judgeHeader_unframed hl hbad]
    exact hskip _
  have hfill : ringBytes s.ring = fill s := by simp [fill, hf]
  have hslots : s.cmd.queued.length + CommandUnit.inHand s.cmd = slotsTaken s := by simp [slotsTaken_eq, hs]
  unfold HeaderUnframed at hbad
  by_cases hk : 0x40 ≤ kind.toNat
  · rw [judgeHeader_command hl hbad hk]
    split_ifs with h1 h2 h3 h4
    case pos | pos | pos => exact h.refuseHeader _ _ _ (by omega)
    · refine h.acceptCommand (r := ⟨kind, tag, []⟩) ?_ ?_
      · rw [not_not.1 h2, h4]
        rfl
      · simp only [freeSlots, Config.commandSlots] at h3
        omega
    · obtain ⟨-, hfill', -, hhold, hqueued, hring⟩ := h
      refine ⟨⟨?_, not_not.1 h2⟩, ?_, ?_, hhold, hqueued, hring⟩
      · rw [List.length_nil]
        omega
      · show ringBytes s.ring + 0 ≤ 32768
        omega
      · show s.cmd.queued.length + CommandUnit.inHand s.cmd + 1 ≤ 4
        simp only [freeSlots, Config.commandSlots] at h3
        omega
  · rw [judgeHeader_stream hl hbad hk]
    split_ifs with h1 h4
    · exact hskip _
    · simp only [freeBytes, Config.ringBytes] at h1
      refine h.enterRing (r := ⟨kind, tag, []⟩) ?_ ?_ <;> simp only [Record.length, List.length_nil] <;> omega
    · obtain ⟨-, -, hslots', hhold, hqueued, hring⟩ := h
      simp only [freeBytes, Config.ringBytes] at h1
      refine ⟨⟨?_, by omega⟩, ?_, ?_, hhold, hqueued, hring⟩
      · rw [List.length_nil]
        omega
      · show ringBytes s.ring + len ≤ 32768
        omega
      · show s.cmd.queued.length + CommandUnit.inHand s.cmd + 0 ≤ 4
        omega

theorem LinkSafe.frameByte (h : LinkSafe s) (b : Byte) : LinkSafe (s.frameByte b) := by
  have hsafe := h.1
  unfold State.frameByte
  split
  · split
    · exact h
    · exact h.setFraming (l := { s.link with framing := .header [b] }) (show 1 ≤ 1 ∧ 1 ≤ 3 by omega) rfl rfl
  · next got hf =>
    rw [hf] at hsafe
    split
    · exact h.judgeHeader (by rw [hf]; rfl) (by rw [hf]; rfl) ..
    · next hne =>
      refine h.setFraming (l := { s.link with framing := .header (got ++ [b]) }) ?_ rfl rfl
      obtain ⟨h1, h3⟩ := hsafe
      show 1 ≤ (got ++ [b]).length ∧ (got ++ [b]).length ≤ 3
      rw [List.length_append, List.length_singleton]
      refine ⟨by omega, ?_⟩
      by_contra hlen
      have hlen : got.length = 3 := by omega
      obtain ⟨x, y, z, rfl⟩ := List.length_eq_three.1 hlen
      exact hne x y z rfl
  · next kind tag len got hf =>
    rw [hf] at hsafe
    obtain ⟨h1, h2⟩ := hsafe
    have hfill : ringBytes s.ring + len ≤ 32768 := by simpa [fill, hf, Framing.reserved] using h.2.1
    split
    · next hle =>
      refine h.enterRing (r := ⟨kind, tag, got ++ [b]⟩) ?_ ?_ <;>
        simp only [Record.length, List.length_append, List.length_singleton] <;> omega
    · next hle =>
      obtain ⟨-, -, hslots, hhold, hqueued, hring⟩ := h
      refine ⟨⟨?_, h2⟩, hfill, ?_, hhold, hqueued, hring⟩
      · rw [List.length_append, List.length_singleton]
        omega
      · rw [slotsTaken_eq, hf] at hslots
        exact hslots
  · next kind tag len got hf =>
    rw [hf] at hsafe
    obtain ⟨h1, h2⟩ := hsafe
    have hslots : s.cmd.queued.length + CommandUnit.inHand s.cmd + 1 ≤ 4 := by
      have := h.2.2.1
      rwa [slotsTaken_eq, hf] at this
    split
    · next hle =>
      refine h.acceptCommand (r := ⟨kind, tag, got ++ [b]⟩) ?_ (by omega)
      simp only [Record.length, List.length_append, List.length_singleton, h2]
      congr 1
      omega
    · next hle =>
      obtain ⟨-, hfill, -, hhold, hqueued, hring⟩ := h
      refine ⟨⟨?_, h2⟩, ?_, hslots, hhold, hqueued, hring⟩
      · rw [List.length_append, List.length_singleton]
        omega
      · rw [fill, hf] at hfill
        exact hfill
  · next left hf =>
    split
    · exact h.setFraming trivial rfl rfl
    · next hle => exact h.setFraming (l := { s.link with framing := .skipCommand (left - 1) }) (show 0 < left - 1 by omega) rfl rfl
  · exact h

theorem LinkSafe.clockByte (h : LinkSafe s) (b : Byte) : LinkSafe (s.clockByte b) := by
  unfold State.clockByte
  split
  · exact LinkSafe.frameByte (s := s.setLink { s.link with clocked := s.link.clocked + 1 }) (LinkSafe.congr h rfl rfl rfl) b
  · exact h
  · exact h

theorem LinkSafe.clockByte_if (h : LinkSafe s) (c : Bool) (b : Byte) : LinkSafe (if c then s.clockByte b else s) := by
  split
  · exact h.clockByte b
  · exact h

theorem LinkSafe.execTransferBegin (h : LinkSafe s) (he : execTransferBegin s = .next t) : LinkSafe t := by
  cases he
  split
  · exact h.setFraming trivial rfl rfl
  · exact h
  · exact h

theorem LinkSafe.execTransferEnd (h : LinkSafe s) {n : Nat} (he : execTransferEnd n s = .next t) : LinkSafe t := by
  unfold Machine.execTransferEnd at he
  split at he
  · cases he
    split
    · refine LinkSafe.congr (h.setFraming (l := { s.link with framing := .between }) trivial rfl rfl) ?_ ?_ ?_ <;>
        unfold State.raiseIf <;> split <;> rfl
    · exact LinkSafe.congr h rfl rfl rfl
    · exact h
  · cases he

theorem LinkSafe.ofLink (h : LinkSafe s) {c : Instr} (hc : Instr.ofLink c = true) (he : exec c s = .next t) : LinkSafe t := by
  cases c with
  | transferBegin => exact h.execTransferBegin he
  | transferEnd n => exact h.execTransferEnd he
  | recordHeader b | streamRecordEntry b | commandWhole b =>
    cases he
    exact h.clockByte_if _ b
  | inboundByte b =>
    cases he
    exact h.clockByte b
  | _ => cases hc

theorem LinkSafe.made (h : LinkSafe s) (m : Made s t) : LinkSafe t := by
  cases m with
  | link hc _ =>
    obtain ⟨c, hc, he⟩ := hc
    exact h.ofLink hc he
  | command r rest hr m =>
    obtain ⟨ht, hroom⟩ := h.taking hr
    exact ht.kept (m.linkKept (fun e => by cases e)) fun _ => hroom
  | other m => exact h.kept (m.linkKept (fun e => by cases e)) fun e => by cases e

theorem LinkSafe.reset : LinkSafe State.reset :=
  ⟨trivial, Nat.zero_le _, Nat.zero_le _, rfl, fun _ h => absurd h List.not_mem_nil, fun _ h => absurd h List.not_mem_nil⟩

end Sys2Proof.Machine
end

section

open Sys2Proof Sys2Proof.Machine

/-- Settles O51: the link's events admit only what there is room for, and no other event adds to ring or queue, but for a held paint, which keeps its slot. -/
theorem stepKeepsLinkSafe : Obligations.StepKeepsLinkSafe := by
  intro s t hs hstep
  rcases step_cases hstep with rfl | ⟨x, hr | hm | ⟨i, u, -, hm, rfl⟩⟩
  · exact hs
  · cases hr
    exact LinkSafe.reset
  · exact LinkSafe.made (s := s.setPending x) hs hm
  · have hsend : LinkSafe ((s.setPending x).sendEnded i) := by
      unfold State.sendEnded State.freeRetired
      split
      · exact hs
      · split <;> exact hs
    have hkept := Moves.linkKept (fun e => by cases e) (hm.trans (testHeldIf_moves (s.lanes.lane[i].readsFront s.planes)))
    exact LinkSafe.congr (hsend.kept hkept fun e => by cases e) rfl rfl rfl

end

section
/-! PROOFS. What holds of every command, and of power-on. -/

namespace Sys2Proof.Machine

open Sys2Proof

variable {s t : State}

/-- Paper is in canonical form. -/
theorem paperPixels_wf : Pixels.wf [] := ⟨.nil, fun _ h => absurd h List.not_mem_nil⟩

/-- A power-on reset of the power-on state changes nothing. -/
theorem execPowerOnReset_reset : execPowerOnReset State.reset = .next State.reset := rfl

theorem sendEnded_linkKept (s : State) (i : Fin 4) : LinkKept .other s (s.sendEnded i) := by
  unfold State.sendEnded State.freeRetired
  split
  · exact .of_eq rfl rfl rfl rfl
  · split <;> exact .of_eq rfl rfl rfl rfl

theorem Move.pending_eq {o : Origin} (m : Move o s t) : t.pending = s.pending := by
  by_cases h : ∃ l x q n, t = ((s.setLink l).setRing x).setCmd { s.cmd with queued := q, streamHold := n }
  · obtain ⟨l, x, q, n, rfl⟩ := h
    rfl
  · exact (m.linkKept fun _ l x q n e => h ⟨l, x, q, n, e⟩).pending

theorem Moves.pending_eq {o : Origin} (m : Moves o s t) : t.pending = s.pending :=
  m.keep (P := fun u => u.pending = s.pending) (fun _ _ m h => m.pending_eq.trans h) rfl

theorem Made.pending_eq (m : Made s t) : t.pending = s.pending :=
  m.keep (P := fun u => u.pending = s.pending) (fun _ _ _ m h => m.pending_eq.trans h) rfl

/-- No command touches the model's queue. -/
theorem exec_pending_eq {c : Instr} (h : exec c s = .next t) : t.pending = s.pending := by
  by_cases hp : c = .powerOnReset
  · subst hp
    cases h
    rfl
  by_cases hs : c = .sendEnd
  · subst hs
    rcases execSendEnd_cases h with rfl | ⟨i, -, u, hm, rfl⟩
    · rfl
    · exact (Moves.pending_eq (hm.trans (testHeldIf_moves _))).trans (sendEnded_linkKept s i).pending
  exact (exec_made hp hs h).pending_eq

/-- A well-formed command answers a next state. -/
theorem exec_next_of_wellFormed {c : Instr} (h : c.wellFormed = true) (s : State) : ∃ t, exec c s = .next t := by
  cases c with
  | transferEnd n => exact ⟨_, if_pos h⟩
  | laneTimeout n => exact ⟨_, dif_pos (of_decide_eq_true h)⟩
  | _ => exact ⟨_, rfl⟩

/-- A command that cannot occur is a fault. -/
theorem exec_fault_of_not_wellFormed {c : Instr} (h : c.wellFormed = false) (s : State) : exec c s = .fault .illFormed := by
  cases c with
  | transferEnd n => exact if_neg (Bool.eq_false_iff.1 h)
  | laneTimeout n => exact dif_neg (of_decide_eq_false h)
  | _ => cases h

end Sys2Proof.Machine
end

section

open Sys2Proof Sys2Proof.Machine

/-- Settles O1: a step takes the queue's front command. -/
theorem stepRunsFrontCommand : Obligations.StepRunsFrontCommand := by
  intro c rest s h
  unfold step
  rw [h]
  rfl

/-- Settles O2: totality command by command, and the queue as what every move keeps. -/
theorem wellFormedCommandsAnswer : Obligations.WellFormedCommandsAnswer := fun _ s =>
  ⟨fun h => (exec_next_of_wellFormed h s).imp fun _ ht => ⟨ht, exec_pending_eq ht⟩, fun h => exec_fault_of_not_wellFormed h s⟩

/-- Settles O3: the power-on values, written out. -/
theorem powerOnResetsEveryBlock : Obligations.PowerOnResetsEveryBlock := fun _ => rfl

/-- Settles O50: each law's own base case. -/
theorem resetIsSafe : Obligations.ResetIsSafe :=
  ⟨LinkSafe.reset, faceSafe_iff.2 FaceLaws.reset, StoreSafe.reset, planeSafe_iff.2 (PlaneLaws.reset execPowerOnReset_reset),
    composerSafe_iff.2 (ComposerLaws.reset execPowerOnReset_reset), ⟨paperPixels_wf, paperPixels_wf⟩,
    noteSafe_iff.2 (NoteLaws.reset execPowerOnReset_reset), laneSafe_iff.2 LaneLaws.reset, PlannerSafe.reset, EventSafe.reset⟩

end

section
/-! PROOFS. Chapter 1: transfers, and what an inbound byte does. -/

namespace Sys2Proof.Machine

open Sys2Proof

variable {s : State}

/-- R14: the digest, byte by byte. -/
theorem digest_eq (s : State) : digest s =
    [BitVec.ofNat 8 (freeBytes s), BitVec.ofNat 8 (freeBytes s / 256), BitVec.ofNat 8 (freeSlots s),
     BitVec.ofNat 8 (s.comp.state.code + (if 0 < s.cmd.streamHold then 128 else 0)),
     BitVec.ofNat 8 (s.planes.a.code + 16 * s.planes.b.code),
     BitVec.ofNat 8 s.events.flags.toNat, BitVec.ofNat 8 (s.events.flags.toNat / 256),
     BitVec.ofNat 8 (levelFlags s).toNat,
     BitVec.ofNat 8 (s.lanes.lane[0].state.code + 4 * s.lanes.lane[1].state.code + 16 * s.lanes.lane[2].state.code +
       64 * s.lanes.lane[3].state.code),
     BitVec.ofNat 8 s.planner.queue.length, BitVec.ofNat 8 s.tick.toNat, BitVec.ofNat 8 (s.tick.toNat / 256),
     BitVec.ofNat 8 (frontNumber s), BitVec.ofNat 8 (frontNumber s / 256),
     BitVec.ofNat 8 s.link.reply.length, BitVec.ofNat 8 (s.link.reply.length / 256)] := by
  have hbit : bitOf (0 < s.cmd.streamHold) 128 = if 0 < s.cmd.streamHold then 128 else 0 := by
    unfold bitOf
    simp only [decide_eq_true_eq]
  rw [digest, hbit]
  rfl

theorem frontNumber_of_none (h : s.planes.find .shown = none) : frontNumber s = 0 := by
  simp [frontNumber, State.frontPage, Planes.pageOf, h]

theorem frontNumber_of_held {i : PlaneId} {x : Held} (hi : s.planes.find .shown = some i) (hx : (s.planes.get i).held = some x) :
    frontNumber s = x.page.number.toNat % 65536 := by
  simp [frontNumber, State.frontPage, Planes.pageOf, hi, hx]

/-- R1 and R13: select falling opens a transfer. -/
theorem exec_transferBegin_of_high (h : s.link.select = .high) : exec .transferBegin s = .next { s with link :=
    { select := .transfer, framing := .between, outbound := digest s ++ s.link.reply, clocked := 0, carried := s.link.reply.length,
      replaced := false, reply := s.link.reply } } := by
  show execTransferBegin s = _
  rw [execTransferBegin, h]
  rfl

theorem exec_transferEnd {n : Nat} (hn : n < 8) : exec (.transferEnd n) s = .next (match s.link.select with
    | .transfer => (s.setLink { s.link with
        select := .high, framing := .between, outbound := [], clocked := 0, carried := 0, replaced := false,
        reply := if s.link.settled then [] else s.link.reply }).raiseIf s.link.framing.incomplete .framingError
    | .ignored => s.setLink { s.link with select := .high }
    | .high => s) := if_pos (decide_eq_true hn)

/-- R1, R6 and R15: select rising ends the transfer. -/
theorem exec_transferEnd_of_transfer {n : Nat} (hn : n < 8) (h : s.link.select = .transfer) : exec (.transferEnd n) s = .next { s with
    link := { select := .high, framing := .between, outbound := [], clocked := 0, carried := 0, replaced := false,
              reply := if 0 < s.link.carried ∧ s.link.replaced = false ∧ 16 + s.link.carried ≤ s.link.clocked then [] else s.link.reply }
    events := if s.link.framing.incomplete then s.events.mark .framingError else s.events } := by
  have hsettled : s.link.settled = true ↔ 0 < s.link.carried ∧ s.link.replaced = false ∧ 16 + s.link.carried ≤ s.link.clocked := by
    simp [Link.settled, and_assoc]
  rw [exec_transferEnd hn, h]
  simp only [hsettled, State.raiseIf]
  split <;> rfl

theorem exec_inboundByte_of_transfer (h : s.link.select = .transfer) (b : Byte) : exec (.inboundByte b) s = .next (s.countByte.frameByte b) :=
  congrArg _ (clockByte_of_transfer h b)

theorem exec_inboundByte_of_not_transfer (h : s.link.select ≠ .transfer) (b : Byte) : exec (.inboundByte b) s = .next s := by
  show Host.Outcome.next (s.clockByte b) = _
  unfold State.clockByte
  split
  · next hs => exact absurd hs h
  · rfl
  · rfl

/-- R2: header bytes before the last join the header. -/
theorem frameByte_header {got : List Byte} (h : s.link.framing = .header got) (hl : got.length ≠ 3) (b : Byte) :
    s.frameByte b = s.setLink { s.link with framing := .header (got ++ [b]) } := by
  unfold State.frameByte
  rw [h]
  dsimp only
  split
  · exact absurd rfl hl
  · rfl

end Sys2Proof.Machine
end

section

open Sys2Proof Sys2Proof.Machine

/-- Settles O4: the edges of the select pin, and the codes and counts that the digest reports. -/
theorem transfersCarryDigestAndReply : Obligations.TransfersCarryDigestAndReply := by
  refine ⟨fun s => ⟨exec_transferBegin_of_high, digest_eq s, fun h => by rw [pslDo, h], fun h => by rw [pslDo, h], fun h => ?_⟩,
    fun s => ⟨?_, ?_, frontNumber_of_none, fun i x => frontNumber_of_held, ?_, fun i => ?_, fun i => ?_⟩,
    fun s n hn => ⟨exec_transferEnd_of_transfer hn, fun h => ?_, fun h => ?_⟩⟩
  · refine ⟨fun b hb => ?_, fun hle => ?_⟩
    · rw [pslDo, h]
      simp [List.getD, hb]
    · rw [pslDo, h]
      simp [List.getD, List.getElem?_eq_none hle]
  · show 32768 - fill s = _
    unfold fill
    cases s.link.framing <;> rfl
  · show 4 - slotsTaken s = _
    unfold slotsTaken
    cases s.cmd.executing <;> cases s.link.framing <;> rfl
  · cases s.comp.state <;> rfl
  · unfold Plane.code
    cases (s.planes.get i).part with
    | none => rfl
    | some p => cases p <;> rfl
  · cases s.lanes.lane[i].state <;> rfl
  · rw [exec_transferEnd hn, h]
    rfl
  · rw [exec_transferEnd hn, h]

/-- Settles O6: framing state by framing state. -/
theorem inboundByteIsFramed : Obligations.InboundByteIsFramed := by
  refine ⟨fun s b => ⟨fun h => exec_inboundByte_of_not_transfer h b, fun h => ?_⟩, fun s kind tag b got h => ⟨fun hf => ?_, fun hf hk => ?_⟩⟩
  · rw [exec_inboundByte_of_transfer h]
    refine ⟨fun hf => ?_, fun got hf hl => ?_, fun got hf hl => ?_, fun k t len got hf => ?_, fun k t len got hf => ?_, fun left hf => ?_, fun hf => ?_⟩
    · have hc : s.countByte.link.framing = .between := hf
      rw [State.frameByte, hc]
      dsimp only
      split
      · rw [← hf]
        rfl
      · rfl
    · rw [frameByte_header (s := s.countByte) hf hl]
      rfl
    · have hnext : s.link.framing.headerNext = true := by simp [hf, Framing.headerNext, hl]
      show _ = Host.Outcome.next (if s.link.framing.headerNext then s.clockByte b else s)
      rw [if_pos hnext, clockByte_of_transfer h]
    · have hc : s.countByte.link.framing = .bodyStream k t len got := hf
      split
      · next hlt =>
        rw [State.frameByte, hc]
        dsimp only
        rw [if_neg (not_le.2 hlt)]
        rfl
      · next hlt =>
        have hnext : s.link.framing.recordNext = true := by simp [hf, Framing.recordNext, not_lt.1 hlt]
        show _ = Host.Outcome.next (if s.link.framing.recordNext then s.clockByte b else s)
        rw [if_pos hnext, clockByte_of_transfer h]
    · have hc : s.countByte.link.framing = .bodyCommand k t len got := hf
      split
      · next hlt =>
        rw [State.frameByte, hc]
        dsimp only
        rw [if_neg (not_le.2 hlt)]
        rfl
      · next hlt =>
        have hnext : s.link.framing.commandNext = true := by simp [hf, Framing.commandNext, not_lt.1 hlt]
        show _ = Host.Outcome.next (if s.link.framing.commandNext then s.clockByte b else s)
        rw [if_pos hnext, clockByte_of_transfer h]
    · have hc : s.countByte.link.framing = .skipCommand left := hf
      rw [State.frameByte, hc]
      rfl
    · have hc : s.countByte.link.framing = .skipRest := hf
      have hsame : s.countByte.frameByte b = s.countByte := by rw [State.frameByte, hc]
      rw [hsame, ← hf]
      rfl
  · have hc : s.countByte.link.framing = .bodyStream kind tag (got.length + 5) got := hf
    have hnext : s.link.framing.recordNext = true := by simp [hf, Framing.recordNext]
    show Host.Outcome.next (if s.link.framing.recordNext then s.clockByte b else s) = _
    rw [if_pos hnext, clockByte_of_transfer h, State.frameByte, hc]
    dsimp only
    rw [if_pos le_rfl]
    rfl
  · have hc : s.countByte.link.framing = .bodyCommand kind tag (got.length + 5) got := hf
    have hnext : s.link.framing.commandNext = true := by simp [hf, Framing.commandNext]
    show Host.Outcome.next (if s.link.framing.commandNext then s.clockByte b else s) = _
    rw [if_pos hnext, clockByte_of_transfer h, State.frameByte, hc]
    dsimp only
    rw [if_pos le_rfl, acceptCommand_other (r := ⟨kind, tag, got ++ [b]⟩) hk]
    rfl

end

section
/-! PROOFS. Chapter 4: what the Composer's steps do where they are held, and with records that do not suit. -/

namespace Sys2Proof.Machine

open Sys2Proof

/-- R54: the step of each assigned kind takes a record of that kind, judges it by its length and the Composer's state, and applies the kind's rule. -/
theorem composerRecords_take : ∀ x ∈ composerRecords, ∃ rule : State → Record → State,
    ∀ s, exec x.1 s = .next (takeRecord s x.2.1 x.2.2.1 x.2.2.2 (rule s)) := by
  unfold composerRecords
  simp only [List.forall_mem_cons]
  refine ⟨?_, ?_, ?_, ?_, ?_, ?_, ?_, ?_, ?_, ?_, ?_, ?_, ?_, ?_, ?_, ?_, ?_, ?_, fun x hx => absurd hx List.not_mem_nil⟩ <;> exact ⟨_, fun _ => rfl⟩

variable {s : State} {r : Record} {rest : List Record}

/-- R11 and R53: no step of the Composer moves it while it is held. -/
theorem composerStep_held (h : s.cmd.streamHold ≠ 0 ∨ s.comp.state.waiting = true) : ∀ c ∈ composerSteps, exec c s = .next s := by
  simp only [composerSteps, List.forall_mem_cons, List.forall_mem_map]
  refine ⟨?_, ?_, fun x hx => ?_⟩
  · show execUnassignedRecord s = _
    rw [execUnassignedRecord, takable_eq_none h]
  · refine congrArg Host.Outcome.next (if_neg ?_)
    rcases h with h | h
    · simp [h]
    · cases hs : s.comp.state with
      | waitPlane p => simp
      | idle => simp
      | composing => rw [hs] at h; cases h
  · obtain ⟨rule, hrule⟩ := composerRecords_take x hx
    rw [hrule, takeRecord_none (headOf_eq_none h)]

theorem raise_release_of_takes (h : Takes s r rest) (e : EdgeEvent) : (s.raise e).release = withEvent { s with ring := rest } e := by
  rw [release_of_ring (s := s.raise e) h.1]
  rfl

end Sys2Proof.Machine
end

section

open Sys2Proof Sys2Proof.Machine

/-- Settles O7: the steps of the Composer all begin with the same three tests. -/
theorem composerHoldsAndDiscards : Obligations.ComposerHoldsAndDiscards := by
  refine fun s => ⟨composerStep_held, fun r rest h => ⟨fun hk => ?_, fun c k lengthOk content hc hk => ?_⟩⟩
  · show execUnassignedRecord s = _
    rw [execUnassignedRecord, takable_of_takes h]
    dsimp only
    rw [if_neg (by simpa using hk), raise_release_of_takes h]
  · obtain ⟨rule, hrule⟩ := composerRecords_take _ hc
    dsimp only at hrule
    refine ⟨fun hl => ?_, fun hl hcontent hs => ?_⟩
    · rw [hrule, takeRecord_of_takes h hk, hl]
      exact congrArg Host.Outcome.next (raise_release_of_takes h .recordError)
    · rw [hrule, takeRecord_of_takes h hk, hl, hcontent, hs]
      exact congrArg Host.Outcome.next (raise_release_of_takes h .sequenceError)

end

section
/-! PROOFS. Chapter 2: FACE_LOAD, and the use count. -/

namespace Sys2Proof.Machine

open Sys2Proof

variable {s : State} {r : Record} {rest : List Record}

/-- R22: of the four terms of a use count, the stack's is a count of its faces. -/
theorem useCount_eq (s : State) {h : Nat} (hh : h ≠ 0) : useCount s h =
    (if s.faces.current = h then 1 else 0) + (s.faces.stack.map Prod.fst).count h
      + (if h ∈ s.planes.a.faceSet then 1 else 0) + (if h ∈ s.planes.b.faceSet then 1 else 0) := by
  have hstack : (s.faces.stack.filter fun e => e.1 == h).length = (s.faces.stack.map Prod.fst).count h := by
    rw [List.count, List.countP_map, List.countP_eq_length_filter]
    rfl
  simp only [useCount, if_neg hh, hstack, List.contains_iff_mem]

theorem useCount_le (s : State) (h : Nat) : useCount s h ≤ s.faces.stack.length + 3 := by
  by_cases hh : h = 0
  · simp [useCount, hh]
  · have hcount : (s.faces.stack.map Prod.fst).count h ≤ s.faces.stack.length := List.length_map (as := s.faces.stack) Prod.fst ▸ List.count_le_length
    rw [useCount_eq s hh]
    split_ifs <;> omega

/-- R19: the checks of a FACE_LOAD in order. -/
theorem faceLoadRefusal_eq (s : State) (h : Nat) (f : Face) : faceLoadRefusal s h f =
    if h = 0 ∨ 31 < h then some .range
    else if (s.faces.face h).isSome = true ∧ 0 < useCount s h then some .inUse
    else match s.glyphs[f.table]? with
      | none => some .tableNotReady
      | some t =>
        if t.state ≠ .ready then some .tableNotReady
        else if f.lastCode < f.firstCode ∨ f.space = 0 ∨ 16383 < f.space ∨ (t.find f.replacement).isNone = true ∨
            (t.find f.hyphen).isNone = true then some .badEntry
        else none := by
  refine if_congr (by simp) rfl (if_congr (by simp) rfl ?_)
  unfold State.readyTable State.tableAt
  cases s.glyphs[f.table]? with
  | none => rfl
  | some t =>
    dsimp only
    by_cases hready : t.state = .ready
    · rw [Option.filter_some_pos (by simpa using hready), if_neg (not_not.2 hready)]
      exact if_congr (by simp [badEntry, GlyphTable.defines, or_assoc, Config.maxAdvance]) rfl rfl
    · rw [Option.filter_some_neg (by simpa using hready), if_pos hready]

end Sys2Proof.Machine
end

section

open Sys2Proof Sys2Proof.Machine

/-- Settles O8: the use count term by term, and each outcome of the checks. -/
theorem faceLoadIsCheckedInOrder : Obligations.FaceLoadIsCheckedInOrder := by
  refine ⟨fun s h => ⟨rfl, useCount_eq s, fun hs => (useCount_le s h).trans (Nat.add_le_add_right hs 3)⟩, fun s r rest ht hk hlen => ?_⟩
  intro h f done
  refine congrArg Host.Outcome.next ((takeRecord_anywhere_of_body ht hk hlen).trans ?_)
  have hring := ht.1
  have hcheck : faceLoadRefusal s (r.u8 4) (faceOf r) = _ := faceLoadRefusal_eq s h f
  have hrefused (why : FaceReason) (hw : faceLoadRefusal s (r.u8 4) (faceOf r) = some why) :
      (match faceLoadRefusal s (r.u8 4) (faceOf r) with
        | some why => (s.faceFault why r (r.u8 4) 0).release
        | none => (s.setFaces (s.faces.setFace (r.u8 4) (some (faceOf r)))).release) = done.faceFault why r h 0 := by
    rw [hw]
    exact release_faceFault hring why (r.u8 4) 0
  by_cases hrange : h = 0 ∨ 31 < h
  · rw [if_pos hrange] at hcheck ⊢
    exact hrefused _ hcheck
  rw [if_neg hrange] at hcheck ⊢
  by_cases huse : (s.faces.face h).isSome = true ∧ 0 < useCount s h
  · rw [if_pos huse] at hcheck ⊢
    exact hrefused _ hcheck
  rw [if_neg huse] at hcheck ⊢
  cases htable : s.glyphs[f.table]? with
  | none =>
    rw [htable] at hcheck
    exact hrefused _ hcheck
  | some t =>
    rw [htable] at hcheck
    dsimp only at hcheck ⊢
    by_cases hready : t.state ≠ .ready
    · rw [if_pos hready] at hcheck ⊢
      exact hrefused _ hcheck
    rw [if_neg hready] at hcheck ⊢
    by_cases hbad : f.lastCode < f.firstCode ∨ f.space = 0 ∨ 16383 < f.space ∨ (t.find f.replacement).isNone = true ∨
        (t.find f.hyphen).isNone = true
    · rw [if_pos hbad] at hcheck ⊢
      exact hrefused _ hcheck
    · rw [if_neg hbad] at hcheck ⊢
      rw [hcheck]
      show (s.setFaces (s.faces.setFace h (some f))).release = _
      rw [release_setFaces hring, setFace_eq]

end

section
/-! PROOFS. Chapter 3: GLYPH_DEFINE, and the bitmaps that decode. -/

namespace Sys2Proof.Machine

open Sys2Proof

variable {s : State} {r : Record} {rest : List Record}

/-- The pixels that the runs of some bytes cover. -/
def runSum (bytes : List Byte) : Nat := (bytes.map fun b => b.toNat / 16 + 1).sum

/-- What some run bytes decode to. -/
def runLevels (bytes : List Byte) : List Level := bytes.flatMap fun b => List.replicate (b.toNat / 16 + 1) (Fin.ofNat 16 (b.toNat % 16))

/-- R42: bytes split into rows of a width, of the first of which `row` pixels are covered already. -/
def RowsFill (width row : Nat) : List (List Byte) → Prop
  | [] => row = 0
  | x :: rows => row + runSum x = width ∧ ∀ y ∈ rows, runSum y = width

theorem rowsFill_zero {width : Nat} {rows : List (List Byte)} : RowsFill width 0 rows ↔ ∀ y ∈ rows, runSum y = width := by
  cases rows with
  | nil => simp [RowsFill]
  | cons x rows => simp [RowsFill]

theorem runSum_cons (b : Byte) (bytes : List Byte) : runSum (b :: bytes) = (b.toNat / 16 + 1) + runSum bytes := by
  simp [runSum]

theorem runSum_eq_zero {bytes : List Byte} : runSum bytes = 0 ↔ bytes = [] := by
  cases bytes with
  | nil => simp [runSum]
  | cons b t => simp [runSum_cons]

/-- A byte's run fits the row in hand, and ends it or leaves it in hand. -/
theorem rowsFill_cons {width row n : Nat} {b : Byte} {t : List Byte} (hrow : row < width) :
    (∃ rows, rows.length = n ∧ rows.flatten = b :: t ∧ RowsFill width row rows) ↔
      0 < n ∧ row + (b.toNat / 16 + 1) ≤ width ∧
      if row + (b.toNat / 16 + 1) = width then ∃ rows, rows.length = n - 1 ∧ rows.flatten = t ∧ RowsFill width 0 rows
      else ∃ rows, rows.length = n ∧ rows.flatten = t ∧ RowsFill width (row + (b.toNat / 16 + 1)) rows := by
  constructor
  · rintro ⟨rows, rfl, hflat, hfill⟩
    cases rows with
    | nil => cases hflat
    | cons x rows =>
      obtain ⟨hx, hrest⟩ := hfill
      cases x with
      | nil =>
        simp only [runSum, List.map_nil, List.sum_nil] at hx
        omega
      | cons c x =>
        rw [List.flatten_cons, List.cons_append, List.cons.injEq] at hflat
        obtain ⟨rfl, hflat⟩ := hflat
        rw [runSum_cons] at hx
        refine ⟨by simp, by omega, ?_⟩
        split
        · next heq =>
          have hnil : x = [] := runSum_eq_zero.1 (by omega)
          subst hnil
          exact ⟨rows, rfl, hflat, rowsFill_zero.2 hrest⟩
        · exact ⟨x :: rows, rfl, hflat, by omega, hrest⟩
  · rintro ⟨hn, hle, h⟩
    split at h
    · next heq =>
      obtain ⟨rows, hlen, rfl, hfill⟩ := h
      refine ⟨[b] :: rows, by rw [List.length_cons]; omega, rfl, ?_, rowsFill_zero.1 hfill⟩
      rw [runSum_cons]
      exact heq
    · next hne =>
      obtain ⟨rows, rfl, rfl, hfill⟩ := h
      cases rows with
      | nil => cases hn
      | cons x rows =>
        obtain ⟨hx, hrest⟩ := hfill
        exact ⟨(b :: x) :: rows, rfl, rfl, by rw [runSum_cons]; omega, hrest⟩

/-- R42: run bytes decode exactly when they split into the rows that are left. -/
theorem decodeRuns_eq_some {width height row rows : Nat} {bytes : List Byte} {coverage : List Level} (hrow : row < width) (hrows : rows ≤ height) :
    decodeRuns width height row rows bytes = some coverage ↔
      coverage = runLevels bytes ∧ ∃ l : List (List Byte), l.length = height - rows ∧ l.flatten = bytes ∧ RowsFill width row l := by
  induction bytes generalizing row rows coverage with
  | nil =>
    have hend : (∃ l : List (List Byte), l.length = height - rows ∧ l.flatten = [] ∧ RowsFill width row l) ↔ row = 0 ∧ rows = height := by
      constructor
      · rintro ⟨l, hlen, hflat, hfill⟩
        cases l with
        | nil => exact ⟨hfill, by rw [List.length_nil] at hlen; omega⟩
        | cons x l =>
          obtain ⟨rfl, -⟩ := List.append_eq_nil_iff.1 hflat
          have := hfill.1
          simp only [runSum, List.map_nil, List.sum_nil] at this
          omega
      · rintro ⟨rfl, rfl⟩
        exact ⟨[], by simp, rfl, rfl⟩
    rw [hend]
    simp only [decodeRuns, Bool.and_eq_true, decide_eq_true_eq]
    split
    · next h => simp [h, runLevels, eq_comm]
    · next h => simp [h]
  | cons b t ih =>
    rw [rowsFill_cons hrow, decodeRuns]
    have hlevels : runLevels (b :: t) = List.replicate (b.toNat / 16 + 1) (Fin.ofNat 16 (b.toNat % 16)) ++ runLevels t := List.flatMap_cons
    have hmap {next : Option (List Level)} {p : Prop} (hnext : ∀ l, next = some l ↔ l = runLevels t ∧ p) :
        (next.map fun l => List.replicate (b.toNat / 16 + 1) (Fin.ofNat 16 (b.toNat % 16)) ++ l) = some coverage ↔ coverage = runLevels (b :: t) ∧ p := by
      rw [hlevels, Option.map_eq_some_iff]
      constructor
      · rintro ⟨l, hl, rfl⟩
        obtain ⟨rfl, hp⟩ := (hnext l).1 hl
        exact ⟨rfl, hp⟩
      · rintro ⟨rfl, hp⟩
        exact ⟨_, (hnext _).2 ⟨rfl, hp⟩, rfl⟩
    dsimp only
    by_cases hstop : height ≤ rows ∨ width < row + (b.toNat / 16 + 1)
    · rw [if_pos (by simpa using hstop)]
      constructor
      · intro h
        cases h
      · rintro ⟨-, hn, hle, -⟩
        omega
    · rw [if_neg (by simpa using hstop)]
      have hgo : 0 < height - rows ∧ row + (b.toNat / 16 + 1) ≤ width := by omega
      rw [and_iff_right hgo.1, and_iff_right hgo.2]
      split
      · refine hmap fun l => ?_
        rw [Nat.sub_sub]
        exact ih (by omega) (by omega)
      · exact hmap fun l => ih (by omega) hrows

/-- R42: the bitmaps that decode. -/
theorem decodeBitmap_eq_some (width height : Nat) (bytes : List Byte) (coverage : List Level) :
    decodeBitmap width height bytes = some coverage ↔ coverage = runLevels bytes ∧
      if width = 0 ∨ height = 0 then bytes = []
      else ∃ rows : List (List Byte), rows.length = height ∧ rows.flatten = bytes ∧ ∀ row ∈ rows, runSum row = width := by
  unfold decodeBitmap
  by_cases hz : width = 0 ∨ height = 0
  · rw [if_pos (by simpa using hz), if_pos hz]
    cases bytes with
    | nil => simp [runLevels, eq_comm]
    | cons b t => simp
  · rw [if_neg (by simpa using hz), if_neg hz, decodeRuns_eq_some (by omega) (Nat.zero_le _)]
    simp only [rowsFill_zero, Nat.sub_zero]

/-- R41: the content checks of a GLYPH_DEFINE in order. -/
theorem glyphChecked_eq (t : GlyphTable) (r : Record) : glyphChecked t r =
    if 16383 < r.u16 7 ∨ 224 < r.u8 11 ∨ 224 < r.u8 12 ∨ 15 < r.u8 13 then .error .field
    else if (t.glyphs.getLast?.any fun g => decide (r.u16 5 ≤ g.code)) = true then .error .order
    else if 4096 ≤ t.glyphs.length then .error .count
    else if t.budget < t.fill + (r.body.length + 2) then .error .overfill
    else match decodeBitmap (r.u8 11) (r.u8 12) (r.body.drop 10) with
      | none => .error .bitmap
      | some coverage => .ok (glyphOf r coverage) := by
  have hlast : ((t.lastCode.map fun c => decide (r.u16 5 ≤ c)).getD false) = t.glyphs.getLast?.any fun g => decide (r.u16 5 ≤ g.code) := by
    unfold GlyphTable.lastCode
    cases t.glyphs.getLast? <;> rfl
  unfold glyphChecked
  rw [hlast]
  exact if_congr (by simp [Config.maxAdvance, Config.maxSide, or_assoc]) rfl rfl

/-- A signed byte is the byte in two's complement. -/
theorem i8_eq (r : Record) (i : Nat) : r.i8 i = (r.byte i).toInt := by
  rw [Record.i8, signed, BitVec.toInt_eq_toNat_cond]
  show (if (r.byte i).toNat < 128 then _ else _) = _
  split <;> split <;> first | rfl | omega

theorem glyphOf_eq (r : Record) (coverage : List Level) : glyphOf r coverage =
    { code := r.u16 5, advance := r.u16 7, bearing := (r.byte 9).toInt, top := (r.byte 10).toInt, width := r.u8 11, height := r.u8 12,
      kernClass := r.u8 13, coverage := coverage } := by
  rw [glyphOf, i8_eq, i8_eq]

theorem refuseTable_setTable (hring : s.ring = r :: rest) (t : GlyphTable) (why : TableReason) (n : Nat) :
    (s.setTable (r.u8 4) t).refuseTable why r n =
      ({ s with ring := rest, glyphs := s.glyphs.setIfInBounds (r.u8 4) t } : State).tableFault why r (r.u8 4) n := by
  rw [setTable_eq]
  exact refuseTable_of_ring (s := s.setGlyphs (s.glyphs.setIfInBounds (r.u8 4) t)) hring why n

end Sys2Proof.Machine
end

section

open Sys2Proof Sys2Proof.Machine

/-- Settles O14: R42's decoder, by induction on the bytes. -/
theorem glyphBitmapsDecode : Obligations.GlyphBitmapsDecode := decodeBitmap_eq_some

/-- Settles O13: a refused record writes nothing but the fault, a bad glyph makes its table FAULTY, and a good one joins it. -/
theorem glyphDefineIsCheckedInOrder : Obligations.GlyphDefineIsCheckedInOrder := by
  intro s r rest ht hk hlen id done
  have hlength : decide (14 ≤ r.length) = true := decide_eq_true (Nat.add_le_add_right hlen 4)
  refine congrArg Host.Outcome.next ((takeRecord_rule ht hk hlength (.inl rfl)).trans ?_)
  have hring := ht.1
  show (match s.glyphs[id]? with
    | none => s.refuseTable .range r 0
    | some t => _) = _
  cases s.glyphs[id]? with
  | none => exact refuseTable_of_ring hring _ _
  | some t =>
    dsimp only
    by_cases hloading : t.state ≠ .loading
    · rw [if_pos hloading, if_pos hloading]
      exact refuseTable_of_ring hring _ _
    rw [if_neg hloading, if_neg hloading, glyphChecked_eq]
    split_ifs
    case pos | pos | pos | pos => exact refuseTable_setTable hring _ _ _
    cases decodeBitmap (r.u8 11) (r.u8 12) (r.body.drop 10) with
    | none => exact refuseTable_setTable hring _ _ _
    | some coverage =>
      have hcost : r.length - 2 = r.body.length + 2 := by
        unfold Record.length
        omega
      dsimp only
      rw [hcost, release_setTable hring, glyphOf_eq]

end

section
/-! PROOFS. 11.6: an entry of a PARAM_SET, and the PARAM_SET whole. -/

namespace Sys2Proof.Machine

open Sys2Proof

variable {s t : State} {r : Record} {rest : List Record}

/-- R193: the values of all parameters, by id. -/
def Params.values (p : Params) : List Nat :=
  [0, p.stretch, p.shrink, p.coalescing, p.shadeFloor, p.threshold, p.priorityFlip, p.priorityPaint, p.priorityRequest,
    p.prioritySettle, p.priorityCleanup, p.floor, p.fullEvery, p.settle, p.sweep, if p.continuous then 1 else 0, p.residueLimit,
    p.limitFull, p.limitGrey, p.limitFast, p.edgeMask.toNat, p.levelMask.toNat]

theorem Params.read_eq (p : Params) (id : Nat) : p.read id = (Params.values p).getD id 0 := rfl

/-- R179: a timeout limit is held in units of 16 ms, any other value as it is. -/
def heldValue (id v : Nat) : Nat := if 17 ≤ id ∧ id ≤ 19 then v / 16 else v

/-- R193: a parameter's new value stands in its own place, and no other value moves. -/
theorem values_write (p : Params) (v : Nat) : ∀ x ∈ paramTable, v ≤ x.2.2 →
    Params.values (p.write x.1 v) = (Params.values p).set x.1 (heldValue x.1 v) := by
  unfold paramTable
  simp only [List.forall_mem_cons]
  refine ⟨fun _ => rfl, fun _ => rfl, fun _ => rfl, fun _ => rfl, fun _ => rfl, fun _ => rfl, fun _ => rfl, fun _ => rfl, fun _ => rfl, fun _ => rfl,
    fun _ => rfl, fun _ => rfl, fun _ => rfl, fun _ => rfl, fun hv => ?_, fun _ => rfl, fun _ => rfl, fun _ => rfl, fun _ => rfl, fun hv => ?_, fun hv => ?_,
    fun x hx => absurd hx List.not_mem_nil⟩
  case refine_1 =>
    have hone : (if (v == 1) = true then 1 else 0) = v := by
      rcases Nat.le_one_iff_eq_zero_or_eq_one.1 hv with rfl | rfl <;> rfl
    exact congrArg ((Params.values p).set 15) hone
  case refine_2 => exact congrArg ((Params.values p).set 20) ((BitVec.toNat_ofNat ..).trans (Nat.mod_eq_of_lt (Nat.lt_succ_of_le hv)))
  case refine_3 => exact congrArg ((Params.values p).set 21) ((BitVec.toNat_ofNat ..).trans (Nat.mod_eq_of_lt (Nat.lt_succ_of_le hv)))

theorem paramRange_of_mem : ∀ x ∈ paramTable, paramRange x.1 = some x.2 ∧ x.2.1 ≤ x.2.2 ∧ x.1 < 22 := by decide

theorem paramRange_eq_none {id : Nat} (h : id = 0 ∨ 21 < id) : paramRange id = none := by
  unfold paramRange
  split <;> first | rfl | omega

theorem clampNat_eq {lo hi : Nat} (h : lo ≤ hi) (n : Nat) : clampNat lo hi n = max lo (min hi n) := by
  unfold clampNat
  split_ifs <;> omega

theorem entry_of_mem {id lo hi : Nat} (h : (id, lo, hi) ∈ paramTable) (a : ParamPass) (v : Nat) : a.entry id v =
    { params := a.params.write id (clampNat lo hi v), unknown := a.unknown, clamped := a.clamped || v < lo || hi < v,
      sweep := a.sweep || id == 14 || id == 15 } := by
  rw [ParamPass.entry, (paramRange_of_mem _ h).1]

/-- R192: a parameter set is read back, and any other is read as before. -/
theorem read_write {id lo hi v : Nat} (h : (id, lo, hi) ∈ paramTable) (hv : v ≤ hi) (p : Params) (j : Nat) :
    (p.write id v).read j = if j = id then heldValue id v else p.read j := by
  have hlt := (paramRange_of_mem _ h).2.2
  rw [Params.read_eq, Params.read_eq, values_write p v _ h hv, List.getD_eq_getElem?_getD, List.getD_eq_getElem?_getD, List.getElem?_set]
  by_cases hj : j = id
  · rw [if_pos hj.symm, if_pos hj, if_pos (show id < (Params.values p).length from hlt)]
    rfl
  · rw [if_neg (Ne.symm hj), if_neg hj]

/-- 11.6: the entries of a PARAM_SET, by their number. -/
theorem paramPass_eq (p : Params) {n : Nat} (hlen : r.body.length = 3 * n) : paramPass p r =
    (List.range n).foldl (fun a i => ParamPass.entry a (r.u8 (4 + 3 * i)) (r.u16 (5 + 3 * i)))
      { params := p, unknown := false, clamped := false, sweep := false } := by
  have hn : (r.length - 4) / 3 = n := by
    unfold Record.length
    omega
  rw [paramPass, paramEntries, hn, List.foldl_map]

theorem paramSet_lengthOk {n : Nat} (hn : n ≤ 32) (hlen : r.body.length = 3 * n) :
    ((r.length - 4) % 3 == 0 && decide ((r.length - 4) / 3 ≤ 32)) = true := by
  have h : r.length - 4 = 3 * n := by
    unfold Record.length
    omega
  rw [h, Bool.and_eq_true, beq_iff_eq, decide_eq_true_eq]
  omega

/-- R83: the break test of a PARAM_SET, of which the record leaves the ring unless PAGE_FULL handling stops it. -/
theorem shrinkTest_eq (h : s.ring = r :: rest) : s.shrinkTest = match s.breakTest with
    | .placed v => { v with ring := rest, comp := { v.comp with applied := false } }
    | .full v => { v with comp := { v.comp with applied := true } } := by
  unfold State.shrinkTest
  have hring := (breakTest_frame s).ring_eq
  cases hb : s.breakTest with
  | full v => rfl
  | placed v =>
    rw [hb] at hring
    exact release_of_ring (s := v.setComp _) (Eq.trans hring h)

/-- R168 and R192: the values set, with the sweep timer restarted once. -/
theorem setParams_sweepIf (s : State) (a : ParamPass) : (s.setParams a.params).sweepIf a.sweep = { s with
    params := a.params
    planner := if a.sweep = true then
        { s.planner with sweep := if a.params.sweep = 0 then none
                                  else some { due := s.tick + BitVec.ofNat 32 (a.params.sweep * 1000), passed := false } }
      else s.planner } := by
  cases h : a.sweep <;> rfl

end Sys2Proof.Machine
end

section

open Sys2Proof Sys2Proof.Machine

/-- Settles O16: by the table of parameters. -/
theorem paramEntrySetsItsParameter : Obligations.ParamEntrySetsItsParameter := by
  refine fun a id v => ⟨fun h => by rw [ParamPass.entry, paramRange_eq_none h], fun lo hi h => ?_⟩
  intro w
  obtain ⟨-, hle, -⟩ := paramRange_of_mem _ h
  have hw : clampNat lo hi v = w := clampNat_eq hle v
  have hwhi : w ≤ hi := max_le hle (min_le_left ..)
  rw [entry_of_mem h, hw]
  refine ⟨?_, fun j hj => ?_, rfl, ?_, ?_⟩
  · exact (read_write h hwhi a.params id).trans (if_pos rfl)
  · exact (read_write h hwhi a.params j).trans (if_neg hj)
  · simp [or_assoc]
  · simp [or_assoc]

/-- Settles O17: the effects of the values set, in order, and the break test that may follow. -/
theorem paramSetIsApplied : Obligations.ParamSetIsApplied := by
  intro s r rest n ht hk hn hlen a timed placed noted t test
  refine congrArg Host.Outcome.next ((takeRecord_rule ht hk (paramSet_lengthOk hn hlen) (.inl rfl)).trans ?_)
  have happly : s.applyParams (paramPass s.params r) = t := by
    have hplaced : timed.dispatchIf (a.params.floor != s.params.floor) = placed := by
      unfold State.dispatchIf
      by_cases hf : a.params.floor = s.params.floor <;> simp [placed, hf]
    rw [paramPass_eq s.params hlen, State.applyParams, setParams_sweepIf]
    show ((timed.dispatchIf (a.params.floor != s.params.floor)).raiseIf a.unknown .recordError).raiseIf a.clamped .paramClamped = t
    rw [hplaced]
    rfl
  have hkept : t.ring = s.ring ∧ t.comp = s.comp := by
    obtain ⟨q, l, w, hd⟩ := attemptDispatch_frame timed
    have hplaced : placed.ring = s.ring ∧ placed.comp = s.comp := by
      by_cases hf : a.params.floor = s.params.floor
      · rw [show placed = timed from if_pos hf]
        exact ⟨rfl, rfl⟩
      · rw [show placed = attemptDispatch timed from if_neg hf, hd]
        exact ⟨rfl, rfl⟩
    have hraised (u : State) (c : Bool) (e : EdgeEvent) : (if c = true then withEvent u e else u).ring = u.ring ∧
        (if c = true then withEvent u e else u).comp = u.comp := by
      split <;> exact ⟨rfl, rfl⟩
    obtain ⟨hr1, hc1⟩ := hraised placed a.unknown .recordError
    obtain ⟨hr2, hc2⟩ := hraised noted a.clamped .paramClamped
    exact ⟨hr2.trans (hr1.trans hplaced.1), hc2.trans (hc1.trans hplaced.2)⟩
  by_cases happlied : s.comp.applied = true
  · rw [if_pos happlied, if_pos happlied]
    exact shrinkTest_eq ht.1
  rw [if_neg happlied, if_neg happlied]
  dsimp only
  rw [happly, paramPass_eq s.params hlen]
  show (if (a.params.shrink != s.params.shrink && !t.comp.buffer.isEmpty) = true then t.shrinkTest else t.release) = _
  refine if_congr ?_ (shrinkTest_eq (hkept.1.trans ht.1)) (release_of_ring (hkept.1.trans ht.1))
  rw [hkept.2, Bool.and_eq_true, bne_iff_ne, Bool.not_eq_true', List.isEmpty_eq_false_iff]

end

section
/-! PROOFS. 3.8, 4.1 and 4.5: what an entry takes from its face, its append, and the steps of a TEXT_RUN and of a carry. -/

namespace Sys2Proof.Machine

open Sys2Proof

variable {s : State} {r : Record} {rest : List Record} {i : PlaneId} {page : Page}

theorem isGlyphClass_iff (cls : Nat) : isGlyphClass cls = true ↔ cls = 0 ∨ cls = 4 ∨ 6 ≤ cls := by
  simp [isGlyphClass, or_assoc]

section
variable {f : Face} {t : GlyphTable} {code cls : Nat}

/-- An entry of a code and class in the current face. -/
def State.entryOf (s : State) (code cls subst advance : Nat) (kernClass : Option Nat) : Entry :=
  { code := code, subst := subst, cls := cls, face := s.faces.current, shift := s.faces.shift, ordinal := 0,
    advance := advance, kernClass := kernClass, kern := none }

theorem glyphOf_eq_find (hf : s.faces.face s.faces.current = some f) (ht : s.glyphs[f.table]? = some t) (c : Nat) :
    s.glyphOf s.faces.current c = t.find c := by
  simp only [State.glyphOf, State.tableAt, hf, Option.bind_some, ht]

/-- R48: a code in the face's range and its table. -/
theorem lookup_found {g : Glyph} (hf : s.faces.face s.faces.current = some f) (ht : s.glyphs[f.table]? = some t) (hc : isGlyphClass cls = true)
    (hg : t.find code = some g) (hrange : f.firstCode ≤ code ∧ code ≤ f.lastCode) :
    s.lookup code cls = (s.entryOf code cls code g.advance (some g.kernClass), none) := by
  simp only [State.lookup, hf, hc, if_true, glyphOf_eq_find hf ht, hg, hrange, decide_true, Bool.and_self, Option.isSome_some]
  rfl

/-- R48: a code beyond the face's range. -/
theorem lookup_outOfRange {g : Glyph} (hf : s.faces.face s.faces.current = some f) (ht : s.glyphs[f.table]? = some t) (hc : isGlyphClass cls = true)
    (hg : t.find f.replacement = some g) (hrange : code < f.firstCode ∨ f.lastCode < code) :
    s.lookup code cls = (s.entryOf code cls f.replacement g.advance (some g.kernClass), some .outOfRange) := by
  have hout : ¬ (decide (f.firstCode ≤ code) && decide (code ≤ f.lastCode)) = true := by
    rw [Bool.and_eq_true, decide_eq_true_eq, decide_eq_true_eq]
    omega
  simp only [State.lookup, hf, hc, if_true, glyphOf_eq_find hf ht, hg, if_neg hout]
  rfl

/-- R48: a code that the table does not define. -/
theorem lookup_undefined {g : Glyph} (hf : s.faces.face s.faces.current = some f) (ht : s.glyphs[f.table]? = some t) (hc : isGlyphClass cls = true)
    (hg : t.find f.replacement = some g) (hrange : f.firstCode ≤ code ∧ code ≤ f.lastCode) (hnone : t.find code = none) :
    s.lookup code cls = (s.entryOf code cls f.replacement g.advance (some g.kernClass), some .undefined) := by
  simp only [State.lookup, hf, hc, if_true, glyphOf_eq_find hf ht, hg, hrange, decide_true, Bool.and_self, hnone, Option.isSome_none,
    Bool.false_eq_true, if_false]
  rfl

/-- R49: a space takes the face's space advance, SOFT_HYPHEN and LINE_BREAK nothing. -/
theorem lookup_plain (hf : s.faces.face s.faces.current = some f) (hc : isGlyphClass cls = false) :
    s.lookup code cls = (s.entryOf code cls code (if cls = 1 ∨ cls = 2 then f.space else 0) none, none) := by
  simp only [State.lookup, hf, hc, Bool.false_eq_true, if_false, Bool.or_eq_true, decide_eq_true_eq]
  by_cases hspace : cls = 1 ∨ cls = 2
  · rw [if_pos hspace, if_pos hspace]
    rfl
  · rw [if_neg hspace, if_neg hspace]
    rfl

end

/-- R52: the kern adjustment of an entry against the one before it. -/
theorem kernFor_eq (s : State) (e : Entry) : s.kernFor e =
    match s.comp.buffer.getLast?, (s.faces.face e.face).bind fun f => s.glyphs[f.table]? with
    | some p, some t =>
      if (p.cls = 0 ∨ p.cls = 4 ∨ 6 ≤ p.cls) ∧ (e.cls = 0 ∨ e.cls = 4 ∨ 6 ≤ e.cls) ∧ p.face = e.face then
        p.kernClass.bind fun l => e.kernClass.map fun r => t.kern.getD (16 * l + r) 0
      else none
    | _, _ => none := by
  unfold State.kernFor State.tableAt
  cases s.comp.buffer.getLast? with
  | none => rfl
  | some p =>
    cases (s.faces.face e.face).bind fun f => s.glyphs[f.table]? with
    | none =>
      dsimp only
      split
      · cases p.kernClass <;> cases e.kernClass <;> rfl
      · rfl
    | some t =>
      refine if_congr ?_ ?_ rfl
      · rw [Bool.and_eq_true, Bool.and_eq_true, isGlyphClass_iff, isGlyphClass_iff, beq_iff_eq, and_assoc]
      · cases p.kernClass <;> cases e.kernClass <;> rfl

theorem withPara_getD (c : Composer) :
    c.withPara = { c with para := some (c.para.getD { alignment := .justify, indent := 0, spaceBefore := 0, firstDone := false }) } := by
  unfold Composer.withPara
  cases h : c.para with
  | none => rfl
  | some p =>
    show c = { c with para := some p }
    rw [← h]

/-! ### A step of a TEXT_RUN -/

theorem runEntries_eq {n : Nat} (hlen : r.body.length = 3 * n) : runEntries r = n := by
  unfold runEntries Record.length
  omega

theorem appendNew_eq (s : State) (r : Record) (code cls : Nat) : s.appendNew r code cls =
    ((match (s.lookup code cls).2 with
      | none => s
      | some why => s.glyphMissing why r code s.comp.nextOrdinal).join (s.lookup code cls).1).afterAppend cls := by
  unfold State.appendNew
  dsimp only
  cases (s.lookup code cls).2 <;> rfl

/-- R55: of the entries of a run, one at the index is taken next. -/
theorem exec_textRunEntry {n : Nat} (h : TakesInPage s r rest) (hk : r.kind = 0x05) (hlen : r.body.length = 3 * n) : exec .textRunEntry s = .next (
    if s.faces.current = 0 then ((s.faceFault .nullFace r 0 s.comp.nextOrdinal).setComp { s.comp with index := 0 }).release
    else if n ≤ s.comp.index then s.runTo n s.comp.index
    else if 8192 ≤ s.comp.nextOrdinal then s.pageFull
    else match s.appendNew r (r.u16 (4 + 3 * s.comp.index)) (r.u8 (6 + 3 * s.comp.index)) with
      | .full s' => s'.setComp { s'.comp with index := s.comp.index + 1 }
      | .placed s' => s'.runTo n (s.comp.index + 1)) := by
  have hlength : ((r.length - 4) % 3 == 0) = true := by
    rw [beq_iff_eq, Record.length]
    omega
  refine congrArg Host.Outcome.next ((takeRecord_inPage h hk hlength).trans ?_)
  have hn := runEntries_eq hlen
  subst hn
  rfl

theorem runTo_eq {u : State} (hu : u.ring = r :: rest) (n k : Nat) : u.runTo n k =
    if k < n then { u with comp := { u.comp with index := k } } else { u with ring := rest, comp := { u.comp with index := 0 } } := by
  unfold State.runTo
  by_cases h : k < n
  · rw [if_neg (not_le.2 h), if_pos h]
    rfl
  · rw [if_pos (not_lt.1 h), if_neg h]
    exact release_of_ring (s := u.setComp _) hu

end Sys2Proof.Machine
end

section

open Sys2Proof Sys2Proof.Machine

/-- Settles O18: by the entry's class and code. -/
theorem lookupFindsTheGlyph : Obligations.LookupFindsTheGlyph := by
  refine fun s f t code cls hf ht => ⟨fun hc => ?_, fun hc => ?_, fun hc => ?_⟩
  · have hc := (isGlyphClass_iff cls).2 hc
    exact ⟨fun g hg h1 h2 => lookup_found hf ht hc hg ⟨h1, h2⟩, fun g hg h => lookup_outOfRange hf ht hc hg h,
      fun g hg h1 h2 hn => lookup_undefined hf ht hc hg ⟨h1, h2⟩ hn⟩
  · have hplain : isGlyphClass cls = false := by rcases hc with rfl | rfl <;> rfl
    rw [lookup_plain hf hplain, if_pos hc]
    rfl
  · have hplain : isGlyphClass cls = false := by rcases hc with rfl | rfl <;> rfl
    rw [lookup_plain hf hplain, if_neg (by omega)]
    rfl

/-- Settles O19: the append, and what it leads to. -/
theorem appendJoinsTheBuffer : Obligations.AppendJoinsTheBuffer := by
  intro s i page e hp n kern
  have hkern : s.kernFor e = kern := kernFor_eq s e
  refine ⟨?_, fun cls => ?_⟩
  · rw [join_eq_of hp, Composer.joined, withPara_getD, State.stamped, hkern]
    rfl
  · refine congrArg (Commit.andThen _) (funext fun t => ?_)
    unfold State.bufferFull
    by_cases h : t.comp.buffer.length < 256
    · rw [if_neg (not_le.2 h), if_pos h]
    · rw [if_pos (not_lt.1 h), if_neg h]
      rfl

/-- Settles O20: by the face, the index and the ordinals left. -/
theorem textIsAppendedEntryByEntry : Obligations.TextIsAppendedEntryByEntry := by
  intro s r rest n i at_
  refine ⟨fun h hk hlen => ?_, fun e carry hs hh hc => ?_⟩
  · rw [exec_textRunEntry h hk hlen]
    intro found noted
    refine ⟨fun h0 => ?_, fun h0 hn => ?_, fun h0 hn ho => ?_, fun h0 hn ho => ?_⟩
    · rw [if_pos h0]
      exact congrArg _ (release_of_ring (s := (s.faceFault .nullFace r 0 s.comp.nextOrdinal).setComp _) h.1)
    · rw [if_neg h0, if_pos hn, runTo_eq h.1, if_neg (not_lt.2 hn)]
    · rw [if_neg h0, if_neg (not_le.2 hn), if_pos ho]
    · rw [if_neg h0, if_neg (not_le.2 hn), if_neg (not_le.2 ho), appendNew_eq]
      have hring : noted.ring = s.ring := by
        show (match found.2 with
          | none => s
          | some why => s.glyphMissing why r (r.u16 (4 + 3 * i)) s.comp.nextOrdinal).ring = _
        cases found.2 <;> rfl
      have hframe := ((join_frame noted found.1).trans (afterAppend_frame _ (r.u8 (6 + 3 * i)))).ring_eq
      show Host.Outcome.next (match (noted.join found.1).afterAppend (r.u8 (6 + 3 * i)) with
        | .full t => _
        | .placed t => _) = _
      cases ha : (noted.join found.1).afterAppend (r.u8 (6 + 3 * i)) with
      | full t => rfl
      | placed t =>
        rw [ha] at hframe
        dsimp only
        rw [runTo_eq (u := t) ((hframe.trans hring).trans h.1)]
  · show execCarryReappend s = _
    rw [execCarryReappend, if_pos (by rw [hs, hh]; rfl), hc]
    rfl

end

section
/-! PROOFS. 4.3, 5.2 and 5.3: widths, limits, the fit test, and the break chosen for a pending line. -/

namespace Sys2Proof.Machine

open Sys2Proof

/-! ### Widths and limits -/

theorem spanSum_false (es : List Entry) : spanSum false es = (es.map fun e => (e.advance : Int)).sum + (es.map fun e => e.kern.getD 0).sum := by
  induction es with
  | nil => rfl
  | cons e es ih =>
    rw [spanSum, ih]
    simp only [Bool.false_eq_true, if_false, List.map_cons, List.sum_cons]
    omega

/-- R79 and R80. -/
theorem naturalWidth_eq (hy : Nat) (es : List Entry) :
    naturalWidth hy es = (es.map fun e => (e.advance : Int)).sum + ((es.drop 1).map fun e => e.kern.getD 0).sum + (hy : Int) := by
  cases es with
  | nil => simp [naturalWidth, spanSum]
  | cons e es =>
    rw [naturalWidth, spanSum, spanSum_false]
    simp only [if_true, List.map_cons, List.sum_cons, List.drop_one, List.tail_cons]
    omega

/-- R81: the caps of a line's spaces. -/
def spaceCaps (k : Nat) (es : List Entry) : List Nat := (es.filter Entry.isSpace).map fun e => e.advance * k / 16

theorem spaceCaps_length (k : Nat) (es : List Entry) : (spaceCaps k es).length = spaceCount es := List.length_map ..

theorem spaceLimit_eq (k : Nat) (es : List Entry) : spaceLimit k es = match spaceCaps k es with
    | [] => 0
    | c :: t => t.foldl min c := rfl

theorem foldl_min_mem (c : Nat) (t : List Nat) : t.foldl min c ∈ c :: t := by
  induction t generalizing c with
  | nil => simp
  | cons x t ih =>
    rcases List.mem_cons.1 (ih (min c x)) with h | h
    · rw [List.foldl_cons, h]
      rcases min_choice c x with h | h <;> simp [h]
    · exact List.mem_cons_of_mem _ (List.mem_cons_of_mem _ h)

theorem foldl_min_le (c : Nat) (t : List Nat) : ∀ x ∈ c :: t, t.foldl min c ≤ x := by
  induction t generalizing c with
  | nil => simp
  | cons y t ih =>
    have hle := ih (min c y) _ List.mem_cons_self
    intro x hx
    rcases List.mem_cons.1 hx with rfl | hx
    · exact hle.trans (min_le_left ..)
    · rcases List.mem_cons.1 hx with rfl | hx
      · exact hle.trans (min_le_right ..)
      · exact ih (min c y) x (List.mem_cons_of_mem _ hx)

theorem spaceLimit_of_nil {k : Nat} {es : List Entry} (h : spaceCaps k es = []) : spaceLimit k es = 0 := by rw [spaceLimit_eq, h]

theorem spaceLimit_mem {k : Nat} {es : List Entry} (h : spaceCaps k es ≠ []) : spaceLimit k es ∈ spaceCaps k es := by
  rw [spaceLimit_eq]
  cases hc : spaceCaps k es with
  | nil => exact absurd hc h
  | cons c t => exact foldl_min_mem c t

theorem spaceLimit_le {k : Nat} {es : List Entry} : ∀ c ∈ spaceCaps k es, spaceLimit k es ≤ c := by
  rw [spaceLimit_eq]
  cases hc : spaceCaps k es with
  | nil => simp
  | cons c t => exact foldl_min_le c t

/-- R82. -/
theorem fits_iff {shrink hy : Nat} {measure : Int} {es : List Entry} : fits shrink measure hy es = true ↔
    naturalWidth hy es ≤ measure ∨ (0 < (spaceCaps shrink es).length ∧
      naturalWidth hy es - measure ≤ (((spaceCaps shrink es).length * spaceLimit shrink es : Nat) : Int)) := by
  simp [fits, spaceCaps_length]

/-- 4.3: trimming takes the trailing spaces and no other entry. -/
theorem trimSpaces_append (es : List Entry) :
    es = trimSpaces es ++ es.rtakeWhile Entry.isSpace ∧ (∀ e ∈ es.rtakeWhile Entry.isSpace, e.isSpace = true) ∧
      ∀ e, (trimSpaces es).getLast? = some e → e.isSpace = false := by
  refine ⟨(List.rdropWhile_append_rtakeWhile ..).symm, fun e he => List.mem_rtakeWhile_imp he, fun e he => ?_⟩
  have hnot := List.head?_dropWhile_not Entry.isSpace es.reverse
  rw [trimSpaces, List.getLast?_reverse] at he
  rw [he] at hnot
  simpa using hnot

/-! ### The break chosen -/

section
variable {shrink : Nat} {measure : Int} {hyphen : Nat → Nat} {es : List Entry}

/-- R61 and R62: the place after `n` entries is a candidate, and its line fits. -/
def BreaksAt (shrink : Nat) (measure : Int) (hyphen : Nat → Nat) (es : List Entry) (n : Nat) : Prop :=
  ∃ e, (es.take n).getLast? = some e ∧ (∃ x ∈ es.take n, x.cls ≠ 1 ∧ x.cls ≠ 3) ∧
    ((e.cls = 1 ∧ fits shrink measure 0 (trimSpaces (es.take n)) = true) ∨
     (e.cls = 3 ∧ fits shrink measure (hyphen e.face) (es.take n) = true) ∨
     (e.cls = 4 ∧ fits shrink measure 0 (es.take n) = true))

theorem any_isSolid (es : List Entry) : es.any Entry.isSolid = true ↔ ∃ x ∈ es, x.cls ≠ 1 ∧ x.cls ≠ 3 := by
  simp [Entry.isSolid, Entry.isSpace, clsSpace, clsSoftHyphen]

/-- R61 and R62: the break that a candidate whose line fits makes. -/
theorem candidateAt_eq_some {n : Nat} {b : Break} : candidateAt shrink measure hyphen es n = some b ↔
    BreaksAt shrink measure hyphen es n ∧
      b = { len := n, hyphenated := (es.take n).getLast?.any fun e => decide (e.cls = 3), forced := false, overwide := false } := by
  unfold candidateAt BreaksAt
  dsimp only
  cases hlast : (es.take n).getLast? with
  | none => simp
  | some e =>
    dsimp only
    by_cases hsolid : (es.take n).any Entry.isSolid = true
    · have hsolid' := (any_isSolid _).1 hsolid
      rw [if_neg (by simp [hsolid])]
      simp only [Option.some.injEq, exists_eq_left', hsolid', true_and, Option.any_some, clsSpace, clsSoftHyphen, clsBreakAfter]
      by_cases h1 : e.cls = 1
      · simp [h1, @eq_comm _ b]
      by_cases h3 : e.cls = 3
      · simp [h3, @eq_comm _ b]
      by_cases h4 : e.cls = 4
      · simp [h4, @eq_comm _ b]
      · simp [h1, h3, h4]
    · have hsolid' := mt (any_isSolid _).2 hsolid
      rw [if_pos (by simpa using hsolid)]
      simp only [hsolid', Option.some.injEq, exists_eq_left', false_and, reduceCtorEq]

theorem candidateAt_eq_none {n : Nat} : candidateAt shrink measure hyphen es n = none ↔ ¬ BreaksAt shrink measure hyphen es n := by
  rw [Option.eq_none_iff_forall_ne_some]
  exact ⟨fun h hb => h _ (candidateAt_eq_some.2 ⟨hb, rfl⟩), fun h b hb => h (candidateAt_eq_some.1 hb).1⟩

/-- R62: the scan finds the latest place. -/
theorem scanBreaks_eq_some {n : Nat} {b : Break} (h : scanBreaks shrink measure hyphen es n = some b) :
    candidateAt shrink measure hyphen es b.len = some b ∧ b.len ≤ n ∧ ∀ m ≤ n, BreaksAt shrink measure hyphen es m → m ≤ b.len := by
  induction n with
  | zero => cases h
  | succ n ih =>
    unfold scanBreaks at h
    split at h
    · next c hc =>
      cases h
      have hlen : b.len = n + 1 := by rw [(candidateAt_eq_some.1 hc).2]
      exact ⟨hlen ▸ hc, hlen.le, fun m hm _ => hlen ▸ hm⟩
    · next hnone =>
      obtain ⟨hc, hle, hmax⟩ := ih h
      refine ⟨hc, Nat.le_succ_of_le hle, fun m hm hb => ?_⟩
      rcases Nat.of_le_succ hm with hm | rfl
      · exact hmax m hm hb
      · exact absurd hb (candidateAt_eq_none.1 hnone)

theorem scanBreaks_eq_none {n : Nat} (h : scanBreaks shrink measure hyphen es n = none) : ∀ m ≤ n, ¬ BreaksAt shrink measure hyphen es m := by
  induction n with
  | zero =>
    rintro m hm ⟨e, he, -⟩
    rw [Nat.le_zero.1 hm] at he
    cases he
  | succ n ih =>
    unfold scanBreaks at h
    split at h
    · cases h
    · next hnone =>
      intro m hm
      rcases Nat.of_le_succ hm with hm | rfl
      · exact ih h m hm
      · exact candidateAt_eq_none.1 hnone

/-- R63: the natural width of the first `n` entries is within the measure. -/
def Narrow (measure : Int) (es : List Entry) (n : Nat) : Prop := naturalWidth 0 (trimSpaces (es.take n)) ≤ measure

theorem forcedLength_spec (h : Narrow measure es 1) (n : Nat) (hn : 1 ≤ n) :
    Narrow measure es (forcedLength measure es n) ∧ forcedLength measure es n ≤ n ∧
      ∀ m ≤ n, Narrow measure es m → m ≤ forcedLength measure es n := by
  induction n with
  | zero => omega
  | succ n ih =>
    unfold forcedLength
    split
    · next hw => exact ⟨hw, le_rfl, fun m hm _ => hm⟩
    · next hw =>
      cases n with
      | zero => exact absurd h hw
      | succ n =>
        obtain ⟨h1, h2, h3⟩ := ih (by omega)
        refine ⟨h1, Nat.le_succ_of_le h2, fun m hm hnarrow => ?_⟩
        rcases Nat.of_le_succ hm with hm | rfl
        · exact h3 m hm hnarrow
        · exact absurd hnarrow hw

end

end Sys2Proof.Machine
end

section

open Sys2Proof Sys2Proof.Machine

/-- Settles O21: the scan finds the latest place whose line fits, and the forced break the longest prefix. -/
theorem chosenBreakIsTheLatestThatFits : Obligations.ChosenBreakIsTheLatestThatFits := by
  refine ⟨fun es hy k measure => ⟨naturalWidth_eq hy es, spaceLimit_of_nil, spaceLimit_mem, spaceLimit_le, fits_iff, es.rtakeWhile Entry.isSpace, ?_⟩,
    fun shrink measure hyphen es hes => ?_⟩
  · obtain ⟨happ, hall, hlast⟩ := trimSpaces_append es
    exact ⟨happ, fun e he => beq_iff_eq.1 (hall e he), fun e he => beq_eq_false_iff_ne.1 (hlast e he)⟩
  intro candidate narrow b
  have hpos : 1 ≤ es.length := List.length_pos_iff.2 hes
  cases hscan : scanBreaks shrink measure hyphen es es.length with
  | some c =>
    have hb : b = c := by
      show chooseBreak shrink measure hyphen es = c
      rw [chooseBreak, hscan]
    obtain ⟨hc, hle, hmax⟩ := scanBreaks_eq_some hscan
    obtain ⟨hbreaks, heq⟩ := candidateAt_eq_some.1 hc
    refine ⟨chooseBreak_len .., hb ▸ hle, fun _ => ?_, fun hnone => absurd ⟨c.len, hle, hbreaks⟩ hnone⟩
    rw [hb]
    refine ⟨by rw [heq], by rw [heq], hbreaks, hmax, ?_⟩
    rw [heq]
    cases (es.take c.len).getLast? <;> simp
  | none =>
    have hb : b = forcedBreak measure es := by
      show chooseBreak shrink measure hyphen es = _
      rw [chooseBreak, hscan]
    have hnone := scanBreaks_eq_none hscan
    have hforced : b.len ≤ es.length ∧ b.forced = true ∧ b.hyphenated = false ∧ (b.overwide = true ↔ ¬ narrow 1) ∧
        (narrow 1 → narrow b.len ∧ ∀ n ≤ es.length, narrow n → n ≤ b.len) ∧ (¬ narrow 1 → b.len = 1) := by
      rw [hb, forcedBreak]
      by_cases hn : narrow 1
      · obtain ⟨h1, h2, h3⟩ := forcedLength_spec hn es.length hpos
        rw [if_pos hn]
        exact ⟨h2, rfl, rfl, by simp [hn], fun _ => ⟨h1, h3⟩, fun h => absurd hn h⟩
      · rw [if_neg hn]
        exact ⟨hpos, rfl, rfl, by simp [hn], fun h => absurd h hn, fun _ => rfl⟩
    exact ⟨chooseBreak_len .., hforced.1, fun ⟨n, hle, hc⟩ => absurd hc (hnone n hle), fun _ => hforced.2⟩

end

section
/-! PROOFS. R60 and R78: the break test. -/

namespace Sys2Proof.Machine

open Sys2Proof

variable {s t : State} {i : PlaneId} {page : Page}

theorem measure_eq (h : s.composingPage = some (i, page)) : s.measure = ((page.frame.width : Int) - (s.comp.indent : Int)) * 64 := by
  unfold State.measure
  rw [h]

theorem hyphenAdvance_eq {h : Nat} {f : Face} {x : GlyphTable} {g : Glyph} (hf : s.faces.face h = some f) (ht : s.glyphs[f.table]? = some x)
    (hg : x.find f.hyphen = some g) : s.hyphenAdvance h = g.advance := by
  have hglyph : s.glyphOf h f.hyphen = some g := by simp only [State.glyphOf, State.tableAt, hf, ht, Option.bind_some, hg]
  simp only [State.hyphenAdvance, hf, Option.bind_some, hglyph]

/-- A page that is rewritten plays the part it played. -/
theorem Planes.pageOf_setPage {p : Planes} {part : Part} {page' : Page} (h : p.pageOf part = some (i, page)) :
    (p.setPage i page').pageOf part = some (i, page') := by
  obtain ⟨hi, hx⟩ := Planes.pageOf_eq_some _ _ h
  have hfind : (p.setPage i page').find part = some i := by
    rw [← hi]
    have ha : (p.setPage i page').a.part = p.a.part := Planes.part_setPage p i .a page'
    have hb : (p.setPage i page').b.part = p.b.part := Planes.part_setPage p i .b page'
    rw [Planes.find, Planes.find, ha, hb]
  have hheld : ((p.setPage i page').get i).held = some { part := part, page := page' } := by
    rw [Planes.setPage, Planes.get_set, hx]
    rfl
  rw [Planes.pageOf, hfind]
  dsimp only
  rw [hheld]
  rfl

theorem Planes.pageOf_setPixels (p : Planes) (j : PlaneId) (x : Pixels) (part : Part) : (p.setPixels j x).pageOf part = p.pageOf part := by
  have hfind : (p.setPixels j x).find part = p.find part := by
    have ha : (p.setPixels j x).a.part = p.a.part := Planes.part_setPixels p j .a x
    have hb : (p.setPixels j x).b.part = p.b.part := Planes.part_setPixels p j .b x
    rw [Planes.find, Planes.find, ha, hb]
  have hheld (k : PlaneId) : ((p.setPixels j x).get k).held = (p.get k).held := Planes.held_setPixels p j k x
  rw [Planes.pageOf, Planes.pageOf, hfind]
  simp only [hheld]

/-- A page is open, wide enough for the pending line's indent. -/
def State.Measured (s : State) : Prop := ∃ i page, s.composingPage = some (i, page) ∧ s.comp.indent ≤ page.frame.width

theorem State.Measured.nonneg (h : State.Measured s) : 0 ≤ s.measure := by
  obtain ⟨i, page, hp, hw⟩ := h
  rw [measure_eq hp]
  omega

/-- R72 and R73: the line after a committed one has no indent. -/
theorem lineTaken_indent (c : Composer) (count : Nat) : (c.lineTaken count).indent = 0 := by
  unfold Composer.indent Composer.lineTaken
  cases c.para <;> rfl

/-- R73: a commit that places its line takes the line's entries from the buffer and leaves the page open. -/
theorem commit_placed {l : EndingLine} (h : State.Measured s) (hc : s.commit l = .placed t) :
    State.Measured t ∧ t.comp.buffer = s.comp.buffer.drop l.entries.length ∧ t.params = s.params := by
  obtain ⟨i, page, hp, hw⟩ := h
  unfold State.commit at hc
  rw [hp] at hc
  dsimp only at hc
  split at hc
  · cases hc
  · injection hc with ht
    obtain ⟨px, hpx⟩ := placeLine_eq s i page l.entries.length (layOut s page l)
    rw [hpx] at ht
    subst ht
    refine ⟨⟨i, page.withLine (layOut s page l), ?_, ?_⟩, rfl, rfl⟩
    · exact (Planes.pageOf_setPixels ..).trans (Planes.pageOf_setPage hp)
    · show (s.comp.lineTaken l.entries.length).indent ≤ page.frame.width
      rw [lineTaken_indent]
      exact Nat.zero_le _

theorem pendingFits_of_nil (h : State.Measured s) (hb : s.comp.buffer = []) : s.pendingFits = true := by
  have hm := h.nonneg
  rw [State.pendingFits, hb]
  simp [fits, naturalWidth, trimSpaces, spanSum, hm]

/-- R60: a break takes entries from the buffer. -/
theorem brokenLine_length (h : State.Measured s) (hf : ¬ s.pendingFits = true) :
    (s.comp.buffer.drop (brokenLine s.comp.buffer s.pendingBreak).entries.length).length < s.comp.buffer.length := by
  obtain ⟨hprefix, hne⟩ := brokenLine_starts h.nonneg (Bool.eq_false_iff.2 hf)
  have hle := hprefix.length_le
  have hpos := List.length_pos_iff.2 hne
  rw [List.length_drop]
  omega

/-- R60: the buffer's length is turns enough. -/
theorem breakUpTo_eq (n : Nat) : ∀ s, State.Measured s → s.comp.buffer.length ≤ n → breakUpTo n s = s.breakTest := by
  induction n using Nat.strong_induction_on with
  | _ n ih =>
    intro s hs hn
    cases n with
    | zero =>
      rw [State.breakTest, Nat.le_zero.1 hn]
    | succ n =>
      unfold State.breakTest
      cases hlen : s.comp.buffer.length with
      | zero =>
        unfold breakUpTo
        rw [if_pos (pendingFits_of_nil hs (List.length_eq_zero_iff.1 hlen))]
      | succ m =>
        unfold breakUpTo
        by_cases hf : s.pendingFits = true
        · rw [if_pos hf, if_pos hf]
        · rw [if_neg hf, if_neg hf]
          cases hc : s.commit (brokenLine s.comp.buffer s.pendingBreak) with
          | full t => rfl
          | placed t =>
            obtain ⟨ht, hb, -⟩ := commit_placed hs hc
            have hlt := brokenLine_length hs hf
            rw [← hb, hlen] at hlt
            show breakUpTo n t = breakUpTo m t
            rw [ih n (Nat.lt_succ_self n) t ht (by omega), ih m (by omega) t ht (by omega)]

/-- R60: the break test, one break at a time. -/
theorem breakTest_eq (h : State.Measured s) : s.breakTest =
    if s.pendingFits = true then .placed s else (s.commit (brokenLine s.comp.buffer s.pendingBreak)).andThen State.breakTest := by
  rw [← breakUpTo_eq (s.comp.buffer.length + 1) s h (Nat.le_succ _), breakUpTo]
  by_cases hf : s.pendingFits = true
  · rw [if_pos hf, if_pos hf]
  · rw [if_neg hf, if_neg hf]
    cases hc : s.commit (brokenLine s.comp.buffer s.pendingBreak) with
    | full t => rfl
    | placed t =>
      obtain ⟨ht, hb, -⟩ := commit_placed h hc
      have hlt := brokenLine_length h hf
      rw [← hb] at hlt
      exact breakUpTo_eq _ t ht hlt.le

/-- R60: the pending line that a break test leaves fits. -/
theorem breakTest_fits (n : Nat) : ∀ s, State.Measured s → s.comp.buffer.length ≤ n → ∀ t, s.breakTest = .placed t → t.pendingFits = true := by
  induction n using Nat.strong_induction_on with
  | _ n ih =>
    intro s hs hn t ht
    rw [breakTest_eq hs] at ht
    split at ht
    · next hf =>
      cases ht
      exact hf
    · next hf =>
      cases hc : s.commit (brokenLine s.comp.buffer s.pendingBreak) with
      | full u =>
        rw [hc] at ht
        cases ht
      | placed u =>
        rw [hc] at ht
        obtain ⟨hu, hb, -⟩ := commit_placed hs hc
        have hlt := brokenLine_length hs hf
        rw [← hb] at hlt
        exact ih u.comp.buffer.length (by omega) u hu le_rfl t ht

end Sys2Proof.Machine
end

section

open Sys2Proof Sys2Proof.Machine

/-- Settles O22: one break at a time, each of which shortens the buffer. -/
theorem breakTestRepeatsUntilTheLineFits : Obligations.BreakTestRepeatsUntilTheLineFits := by
  intro s i page hp hw indent measure b hung
  have hs : State.Measured s := ⟨i, page, hp, hw⟩
  have hm : s.measure = measure := measure_eq hp
  refine ⟨hm, rfl, fun h f t g => hyphenAdvance_eq, ?_, fun t => breakTest_fits _ s hs le_rfl t⟩
  rw [breakTest_eq hs, State.pendingFits, State.pendingBreak, hm]
  rfl

end

section
/-! PROOFS. 5.4: the shares of a line's spaces. -/

namespace Sys2Proof.Machine

open Sys2Proof

/-- R86 and R87: the shares of the first `n` spaces. -/
theorem sum_share (p : Spread) (n : Nat) : ((List.range n).map p.share).sum = (n : Int) * p.each + ((min n p.extra : Nat) : Int) * p.step := by
  induction n with
  | zero => simp
  | succ n ih =>
    rw [List.range_succ, List.map_append, List.sum_append, ih, List.map_singleton, List.sum_singleton, Spread.share]
    have hmin : ((min (n + 1) p.extra : Nat) : Int) = ((min n p.extra : Nat) : Int) + if n < p.extra then 1 else 0 := by
      split <;> omega
    rw [hmin]
    push_cast
    split <;> ring

theorem sum_share_natural (offset : Int) (n : Nat) : ((List.range n).map (Spread.natural offset).share).sum = 0 := by
  rw [sum_share]
  simp [Spread.natural]

/-- R86: an amount within a bound for each space is shared within the bound. -/
theorem div_add_le {d n m i : Nat} (h : d ≤ n * m) : d / n + (if i < d % n then 1 else 0) ≤ m := by
  have hdiv := Nat.div_add_mod d n
  have hle : d / n ≤ m := Nat.div_le_of_le_mul h
  split
  · next hi =>
    by_contra hlt
    have heq : d / n = m := by omega
    rw [heq] at hdiv
    omega
  · omega

/-- R86: the ceiling of a share is within a bound where the whole is within the bounds' sum. -/
theorem ceil_div_le {d n m : Nat} (hn : 0 < n) : (d + n - 1) / n ≤ m ↔ d ≤ n * m := by
  rw [← Nat.lt_succ_iff, Nat.div_lt_iff_lt_mul hn, Nat.succ_mul, Nat.mul_comm m n]
  omega

/-- The shares of an amount `d` among `n` spaces sum to it. -/
theorem sum_share_eq {p : Spread} {d n : Nat} (hn : 0 < n) (hx : p.extra = d % n) (he : p.each = p.step * ((d / n : Nat) : Int)) :
    ((List.range n).map p.share).sum = p.step * (d : Int) := by
  have hmin : min n p.extra = d % n := by
    rw [hx]
    exact min_eq_right (Nat.mod_lt d hn).le
  have hdiv : ((n * (d / n) + d % n : Nat) : Int) = (d : Int) := congrArg _ (Nat.div_add_mod d n)
  rw [sum_share, hmin, he, ← hdiv]
  push_cast
  ring

end Sys2Proof.Machine
end

section

open Sys2Proof Sys2Proof.Machine

/-- Settles O23: case by case of R84. -/
theorem sharesSumToTheSlack : Obligations.SharesSumToTheSlack := by
  intro overwide last a slack n ms mk p total
  have htotal : total = ((List.range n).map p.share).sum := rfl
  refine ⟨fun ho => ?_, fun ho hs hn hd => ?_, fun ho hs ha hl hn hd => ?_, fun ho hs ha hl hn hd => ?_, fun ho hs hc => ?_⟩
  · have hp : p = Spread.natural 0 := if_pos ho
    rw [htotal, hp]
    exact ⟨sum_share_natural 0 n, rfl, rfl, rfl⟩
  · have hp : p = { each := -(((-slack).toNat / n : Nat) : Int), extra := (-slack).toNat % n, step := -1, offset := 0, justified := true, loose := false } := by
      show spreadOf overwide last a slack n ms = _
      rw [spreadOf, ho, if_neg Bool.false_ne_true, if_pos hs]
    have hbound : (-slack).toNat ≤ n * mk := by omega
    have hshare (i : Nat) : p.share i = -(((-slack).toNat / n + (if i < (-slack).toNat % n then 1 else 0) : Nat) : Int) := by
      rw [hp, Spread.share]
      dsimp only
      split <;> push_cast <;> ring
    refine ⟨?_, by rw [hp], by rw [hp], by rw [hp], fun i hi => ?_⟩
    · have hsum := sum_share_eq (p := p) (d := (-slack).toNat) hn (by rw [hp]) (by rw [hp]; ring)
      rw [htotal, hsum, hp]
      dsimp only
      omega
    · have hle := div_add_le (i := i) hbound
      rw [hshare, hshare]
      generalize (-slack).toNat / n = q at hle
      refine ⟨by omega, by omega, ?_⟩
      split <;> split <;> omega
  · have hcase : (decide (a = .justify) && !last && decide (0 < n)) = true := by simp [ha, hl, hn]
    have hbound : slack.toNat ≤ n * ms := by omega
    have hp : p = { each := ((slack.toNat / n : Nat) : Int), extra := slack.toNat % n, step := 1, offset := 0, justified := true, loose := false } := by
      show spreadOf overwide last a slack n ms = _
      rw [spreadOf, ho, if_neg Bool.false_ne_true, if_neg (not_lt.2 hs), if_pos hcase]
      dsimp only
      rw [if_pos ((ceil_div_le hn).2 hbound)]
    have hshare (i : Nat) : p.share i = ((slack.toNat / n + (if i < slack.toNat % n then 1 else 0) : Nat) : Int) := by
      rw [hp, Spread.share]
      dsimp only
      split <;> push_cast <;> ring
    refine ⟨?_, by rw [hp], by rw [hp], by rw [hp], fun i hi => ?_⟩
    · have hsum := sum_share_eq (p := p) (d := slack.toNat) hn (by rw [hp]) (by rw [hp]; ring)
      rw [htotal, hsum, hp]
      dsimp only
      omega
    · have hle := div_add_le (i := i) hbound
      rw [hshare, hshare]
      generalize slack.toNat / n = q at hle
      refine ⟨by omega, by omega, ?_⟩
      split <;> split <;> omega
  · have hcase : (decide (a = .justify) && !last && decide (0 < n)) = true := by simp [ha, hl, hn]
    have hbound : ¬ slack.toNat ≤ n * ms := by omega
    have hp : p = { each := (ms : Int), extra := 0, step := 0, offset := 0, justified := false, loose := true } := by
      show spreadOf overwide last a slack n ms = _
      rw [spreadOf, ho, if_neg Bool.false_ne_true, if_neg (not_lt.2 hs), if_pos hcase]
      dsimp only
      rw [if_neg (mt (ceil_div_le hn).1 hbound)]
    rw [hp]
    exact ⟨fun i _ => by simp [Spread.share], rfl, rfl, rfl⟩
  · have hcase : ¬ (decide (a = .justify) && !last && decide (0 < n)) = true := by
      rcases hc with h | h | h <;> simp [h]
    have hp : p = Spread.natural (startOffset a slack) := by
      show spreadOf overwide last a slack n ms = _
      rw [spreadOf, ho, if_neg Bool.false_ne_true, if_neg (not_lt.2 hs), if_neg hcase]
    rw [htotal, hp]
    refine ⟨sum_share_natural _ n, rfl, rfl, ?_⟩
    cases a <;> rfl

end

section
/-! PROOFS. 4.3 and 5.5: hanging spaces, and the positions of a line's entries. -/

namespace Sys2Proof.Machine

open Sys2Proof

/-! ### Hanging spaces -/

section
variable {α : Type} {cls : α → Nat}

theorem markTrailing_append {hanging core : List α} (hh : ∀ x ∈ hanging, cls x = 1) (hc : ∀ x, core.head? = some x → cls x ≠ 1) :
    markTrailing cls (hanging ++ core) = hanging.map (·, true) ++ core.map (·, false) := by
  induction hanging with
  | nil =>
    cases core with
    | nil => rfl
    | cons x t =>
      rw [List.nil_append, markTrailing, if_neg (hc x rfl)]
      rfl
  | cons x t ih =>
    rw [List.cons_append, markTrailing, if_pos (hh x List.mem_cons_self), ih fun y hy => hh y (List.mem_cons_of_mem _ hy)]
    rfl

/-- R64: a line's trailing spaces, from its end. -/
theorem markTrailing_reverse {hanging core : List α} (hh : ∀ x ∈ hanging, cls x = 1) (hc : ∀ x, core.getLast? = some x → cls x ≠ 1) :
    (markTrailing cls (core ++ hanging).reverse).reverse = core.map (·, false) ++ hanging.map (·, true) := by
  rw [List.reverse_append, markTrailing_append (fun x hx => hh x (List.mem_reverse.1 hx)) (fun x hx => hc x (by rwa [List.head?_reverse] at hx)),
    List.reverse_append, List.map_reverse, List.map_reverse, List.reverse_reverse, List.reverse_reverse]

theorem markHanging_of_not_break {l : List α} (h : ∀ x, l.getLast? = some x → cls x ≠ 5) :
    markHanging cls l = (markTrailing cls l.reverse).reverse := by
  unfold markHanging
  split
  · next hl =>
    rw [hl]
    rfl
  · next x t hl =>
    have hx : l.getLast? = some x := by rw [← List.head?_reverse, hl, List.head?_cons]
    rw [if_neg (h x hx), hl]

/-- R67: a LINE_BREAK does not hang. -/
theorem markHanging_break {l : List α} {x : α} (h : cls x = 5) :
    markHanging cls (l ++ [x]) = (markTrailing cls l.reverse).reverse ++ [(x, false)] := by
  unfold markHanging
  rw [List.reverse_append, List.reverse_singleton, List.singleton_append]
  dsimp only
  rw [if_pos h, List.reverse_cons]

end

/-! ### Positions -/

/-- R80: the kern adjustment that counts: all but the first entry's. -/
def kernIn (j : Nat) (e : Entry) : Int := if j = 0 then 0 else e.kern.getD 0

/-- The spaces before an entry. -/
def spacesBefore (core : List Entry) (j : Nat) : Nat := ((core.take j).filter Entry.isSpace).length

/-- R90: the span of an entry. -/
def spanIn (p : Spread) (core : List Entry) (hy j : Nat) (e : Entry) : Int :=
  kernIn j e + e.advance + (if e.isSpace then p.share (spacesBefore core j) else 0) + (if j + 1 = core.length then (hy : Int) else 0)

/-- R90: the place where the span of the entry numbered `j` begins. -/
def beginsAt (p : Spread) (core : List Entry) (x0 : Int) (hy j : Nat) : Int :=
  x0 + (((core.take j).zipIdx).map fun q => spanIn p core hy q.2 q.1).sum

section
variable {p : Spread} {core : List Entry} {x0 : Int} {hy j : Nat} {e : Entry}

theorem spacesBefore_succ (h : core[j]? = some e) : spacesBefore core (j + 1) = if e.isSpace then spacesBefore core j + 1 else spacesBefore core j := by
  unfold spacesBefore
  rw [List.take_add_one, h, Option.toList_some, List.filter_append, List.filter_singleton]
  cases e.isSpace <;> simp

theorem beginsAt_succ (h : core[j]? = some e) : beginsAt p core x0 hy (j + 1) = beginsAt p core x0 hy j + spanIn p core hy j e := by
  have hlt : j < core.length := (List.getElem?_eq_some_iff.1 h).1
  unfold beginsAt
  rw [List.take_add_one, h, Option.toList_some, List.zipIdx_append, List.map_append, List.sum_append, List.length_take_of_le hlt.le]
  simp [add_assoc]

/-- R90: the positions of the entries that do not hang, ahead of whatever follows; a hyphen's advance counts only where nothing else that does not hang
follows. -/
theorem positions_core {tail : List (Entry × Bool)} (htail : hy = 0 ∨ (tail.any fun q => !q.2) = false) (pre suf : List Entry) (hcore : core = pre ++ suf) :
    positions p hy (decide (pre.length = 0)) (spacesBefore core pre.length) (beginsAt p core x0 hy pre.length) (suf.map (·, false) ++ tail) =
      (suf.zipIdx pre.length).map (fun q => beginsAt p core x0 hy q.2 + kernIn q.2 q.1) ++
        positions p hy (decide (core.length = 0)) (spacesBefore core core.length) (beginsAt p core x0 hy core.length) tail := by
  induction suf generalizing pre with
  | nil =>
    rw [List.append_nil] at hcore
    rw [hcore]
    rfl
  | cons e suf ih =>
    have he : core[pre.length]? = some e := by simp [hcore]
    have hlen : core.length = pre.length + suf.length + 1 := by
      rw [hcore, List.length_append, List.length_cons]
      omega
    have hkern : (if decide (pre.length = 0) = true then 0 else e.kern.getD 0) = kernIn pre.length e := by
      unfold kernIn
      simp only [decide_eq_true_eq]
    have hlast : (if (!(suf.map (·, false) ++ tail).any fun q => !q.2) = true then (hy : Int) else 0) =
        if pre.length + 1 = core.length then (hy : Int) else 0 := by
      rcases htail with rfl | htail
      · simp
      · have hany : ((suf.map (·, false) ++ tail).any fun q => !q.2) = !suf.isEmpty := by
          rw [List.any_append, htail]
          cases suf <;> simp
        rw [hany, hlen]
        cases suf <;> simp
    have hbegin : beginsAt p core x0 hy pre.length + kernIn pre.length e + ((e.advance : Int) + (if e.isSpace then p.share (spacesBefore core pre.length) else 0) +
        (if pre.length + 1 = core.length then (hy : Int) else 0)) = beginsAt p core x0 hy (pre ++ [e]).length := by
      rw [List.length_append, List.length_singleton, beginsAt_succ he, spanIn]
      ring
    have hspaces : (if e.isSpace = true then spacesBefore core pre.length + 1 else spacesBefore core pre.length) =
        spacesBefore core (pre ++ [e]).length := by
      rw [List.length_append, List.length_singleton, spacesBefore_succ he]
    rw [List.map_cons, List.cons_append, positions]
    dsimp only
    rw [if_neg Bool.false_ne_true, hkern, hlast, hbegin, hspaces, List.zipIdx_cons, List.map_cons, List.cons_append]
    refine congrArg _ ?_
    have := ih (pre ++ [e]) (by rw [hcore, List.append_assoc]; rfl)
    simpa using this

/-- R90: a hanging space stands at the line end. -/
theorem positions_hanging (p : Spread) (hy : Nat) (first : Bool) (i : Nat) (x0 : Int) (hanging : List Entry) (rest : List (Entry × Bool)) :
    positions p hy first i x0 (hanging.map (·, true) ++ rest) =
      List.replicate hanging.length x0 ++ positions p hy (first && hanging.isEmpty) i x0 rest := by
  induction hanging generalizing first with
  | nil => simp
  | cons e t ih =>
    rw [List.map_cons, List.cons_append, positions, if_pos rfl, ih]
    simp [List.replicate_succ]

/-- R90: the positions of a line's entries, its hanging spaces, and what follows. -/
theorem positions_line {rest : List (Entry × Bool)} (hrest : hy = 0 ∨ (rest.any fun q => !q.2) = false) (hanging : List Entry) :
    positions p hy true 0 x0 (core.map (·, false) ++ hanging.map (·, true) ++ rest) =
      (core.zipIdx.map fun q => beginsAt p core x0 hy q.2 + kernIn q.2 q.1) ++
        (List.replicate hanging.length (beginsAt p core x0 hy core.length) ++
          positions p hy (decide (core.length = 0) && hanging.isEmpty) (spacesBefore core core.length) (beginsAt p core x0 hy core.length) rest) := by
  have htail : hy = 0 ∨ ((hanging.map (·, true) ++ rest).any fun q => !q.2) = false := hrest.imp_right fun h => by
    rw [List.any_append, h]
    simp
  have hfrom := positions_core (p := p) (core := core) (x0 := x0) htail [] core rfl
  rw [positions_hanging] at hfrom
  have hstart : beginsAt p core x0 hy 0 = x0 := by simp [beginsAt]
  rw [List.append_assoc]
  simpa [hstart, spacesBefore] using hfrom

/-- R90: the position of an entry that does not hang. -/
theorem getElem?_core {xs : List Int} (h : core[j]? = some e) :
    ((core.zipIdx.map fun q => beginsAt p core x0 hy q.2 + kernIn q.2 q.1) ++ xs)[j]? = some (beginsAt p core x0 hy j + kernIn j e) := by
  have hlt : j < core.length := (List.getElem?_eq_some_iff.1 h).1
  rw [List.getElem?_append_left (by simpa using hlt), List.getElem?_map, List.getElem?_zipIdx, h]
  simp

/-- R90: the position of what follows the entries that do not hang. -/
theorem getElem?_after {xs : List Int} (k : Nat) :
    ((core.zipIdx.map fun q => beginsAt p core x0 hy q.2 + kernIn q.2 q.1) ++ xs)[core.length + k]? = xs[k]? := by
  rw [List.getElem?_append_right (by simp)]
  simp

end

end Sys2Proof.Machine
end

section

open Sys2Proof Sys2Proof.Machine

/-- Settles O24: the line's end from behind, and its positions from the front. -/
theorem positionsSumTheSpans : Obligations.PositionsSumTheSpans := by
  refine ⟨fun α cls core hanging hh hc => ⟨fun h5 => ?_, fun x hx => ?_⟩, fun p hy x0 core hanging => ?_⟩
  · rw [markHanging_of_not_break, markTrailing_reverse hh hc]
    intro x hx
    cases hne : hanging.getLast? with
    | none =>
      have hnil := List.getLast?_eq_none_iff.1 hne
      rw [hnil, List.append_nil] at hx
      exact h5 hnil x hx
    | some y =>
      rw [List.getLast?_append, hne] at hx
      cases hx
      rw [hh x (List.mem_of_getLast? hne)]
      decide
  · rw [markHanging_break hx, markTrailing_reverse hh hc]
  intro kern spaces span before xs
  have hxs : xs = _ := (congrArg (positions p hy true 0 x0) (List.append_nil _).symm).trans (positions_line (.inr rfl) hanging)
  refine ⟨fun j e hj => ?_, fun j hj => ?_, fun x hx hk => ?_, fun left indent x => ?_⟩
  · rw [hxs]
    exact getElem?_core hj
  · rw [hxs, getElem?_after, List.getElem?_append_left (by simpa using hj), List.getElem?_replicate, if_pos hj]
    rfl
  · intro ys
    have hbreak : positions p 0 (decide (core.length = 0) && hanging.isEmpty) (spacesBefore core core.length) (beginsAt p core x0 0 core.length) [(x, false)] =
        [beginsAt p core x0 0 core.length] := by
      simp [positions, hk]
    have hys : ys = _ := positions_line (.inl rfl) hanging
    rw [hbreak, ← List.replicate_succ'] at hys
    refine ⟨fun j e hj => ?_, fun j hj => ?_⟩
    · rw [hys]
      exact getElem?_core hj
    · rw [hys, getElem?_after, List.getElem?_replicate, if_pos (Nat.lt_succ_of_le hj)]
      rfl
  · unfold pixelX
    omega

end

section
/-! PROOFS. 4.5, 5.4 and 5.6: an ending line laid out, and its commit. -/

namespace Sys2Proof.Machine

open Sys2Proof

/-- R73: the placement of a line's entry by its number. -/
theorem placeEntries_getElem? (ft : FaceTable) (hyphenated : Bool) {es : List (Entry × Bool)} {xs : List Int} {j : Nat} {e : Entry} {hangs : Bool} {x : Int}
    (he : es[j]? = some (e, hangs)) (hx : xs[j]? = some x) :
    let taken := hyphenated && !hangs && (es.drop (j + 1)).all (·.2)
    (placeEntries ft hyphenated es xs)[j]? = some
      { ordinal := e.ordinal, face := e.face, cls := e.cls, shift := e.shift, x := x
        code := if taken = true then ((ft.face e.face).map (·.hyphen)).getD 0 else e.subst
        drawn := taken || isGlyphClass e.cls } := by
  induction es generalizing xs j with
  | nil => cases he
  | cons q es ih =>
    cases xs with
    | nil => cases hx
    | cons y xs =>
      obtain ⟨e', hangs'⟩ := q
      cases j with
      | zero =>
        cases he
        cases hx
        have hall : (!es.any fun q => !q.2) = es.all (·.2) := by simp [List.not_any_eq_all_not]
        simp only [placeEntries, List.getElem?_cons_zero, hall, Nat.zero_add, List.drop_succ_cons, List.drop_zero]
      | succ j => exact ih (xs := xs) (j := j) he hx

theorem layOut_placement {s : State} {page : Page} {l : EndingLine} {hy : Nat} {spread : Spread} {j : Nat} {e : Entry} {hangs : Bool} {x : Int}
    (hhy : hy = if l.hyphenated then ((l.core.getLast?).map fun e => s.hyphenAdvance e.face).getD 0 else 0)
    (hspread : spread = spreadOf l.overwide l.last (match s.comp.para with | some p => p.alignment | none => .justify)
      (s.measure - naturalWidth hy l.core) (spaceCount l.core) (spaceLimit s.params.stretch l.core))
    (he : (markHanging (·.cls) l.entries)[j]? = some (e, hangs))
    (hx : (positions spread hy true 0 spread.offset (markHanging (·.cls) l.entries))[j]? = some x) :
    let taken := l.hyphenated && !hangs && ((markHanging (·.cls) l.entries).drop (j + 1)).all (·.2)
    (layOut s page l).placements[j]? = some
      { ordinal := e.ordinal, face := e.face, cls := e.cls, shift := e.shift, x := pixelX page.frame.left s.comp.indent x
        code := if taken = true then ((s.faces.face e.face).map (·.hyphen)).getD 0 else e.subst
        drawn := taken || isGlyphClass e.cls } := by
  subst hhy hspread
  refine placeEntries_getElem? s.faces l.hyphenated he ?_
  rw [List.getElem?_map]
  exact congrArg (Option.map _) hx

/-! ### The box of a line -/

/-- R92: the greatest of a metric over a line's faces. -/
def mostOf (faces : List (Option Face)) (g : Face → Nat) : Nat := (faces.map fun f => (f.map g).getD 0).foldl max 0

theorem boxMetrics_eq (t : FaceTable) (core : List Entry) : boxMetrics t core =
    let faces := if core = [] then [t.face t.current] else core.map fun e => t.face e.face
    (mostOf faces (·.ascent), mostOf faces (·.descent), mostOf faces (·.gap)) := by
  unfold boxMetrics mostOf
  simp only [List.isEmpty_iff, List.foldl_map]

/-- R70 and R93: the space above a paragraph's first line. -/
def Composer.spaceAbove (c : Composer) : Nat :=
  match c.para with
  | some p => if p.firstDone then 0 else p.spaceBefore
  | none => 0

theorem layOut_baseline (s : State) (page : Page) (l : EndingLine) :
    (layOut s page l).line.baseline = nextBaseline page (Composer.spaceAbove s.comp) (boxMetrics s.faces l.core).1 := by
  show nextBaseline page (match s.comp.para with
    | some p => if s.comp.firstLine then p.spaceBefore else 0
    | none => 0) _ = _
  unfold Composer.spaceAbove Composer.firstLine
  cases s.comp.para with
  | none => rfl
  | some p => cases h : p.firstDone <;> simp [h]

theorem layOut_passes (s : State) (page : Page) (l : EndingLine) : (layOut s page l).passes =
    decide ((layOut s page l).line.baseline + (boxMetrics s.faces l.core).2.1 ≤ 2240 - page.frame.bottom) := rfl

theorem nextBaseline_eq (page : Page) (space ascent : Nat) : nextBaseline page space ascent =
    (match page.lines.getLast? with
      | none => page.frame.top
      | some q => q.baseline + q.descent + q.gap + space) + ascent := by
  unfold nextBaseline
  cases page.lines.getLast? <;> rfl

end Sys2Proof.Machine
end

section

open Sys2Proof Sys2Proof.Machine

/-- Settles O25: the layout, field by field, and its placements by number. -/
theorem lineIsLaidOut : Obligations.LineIsLaidOut := by
  intro s page l hy alignment spread marked xs out
  refine ⟨markHanging_fst _ _, rfl, rfl, rfl, rfl, layOut_length s page l, fun j e hangs x he hx => ?_⟩
  have hplaced := layOut_placement (s := s) (page := page) (l := l) (hy := hy) (spread := spread) rfl rfl he hx
  have hglyph : isGlyphClass e.cls = decide (e.cls = 0 ∨ e.cls = 4 ∨ 6 ≤ e.cls) := by
    rw [Bool.eq_iff_iff, isGlyphClass_iff, decide_eq_true_eq]
  rw [hglyph] at hplaced
  exact hplaced

/-- Settles O26: the box, the checks, and the line placed. -/
theorem commitPlacesTheLine : Obligations.CommitPlacesTheLine := by
  intro s i page l hp first faces most space baseline out line page'
  have hbox : boxMetrics s.faces l.core = (most (·.ascent), most (·.descent), most (·.gap)) := boxMetrics_eq s.faces l.core
  have hbase : out.line.baseline = baseline := by
    rw [show out.line.baseline = _ from layOut_baseline s page l, hbox]
    exact nextBaseline_eq page space _
  have hpasses : out.passes = !decide (2240 - page.frame.bottom < baseline + most (·.descent)) := by
    rw [show out.passes = _ from layOut_passes s page l, hbox, ← hbase, ← decide_not]
    exact decide_eq_decide.2 not_lt.symm
  have hline : ({ out.line with flags := { out.line.flags with overtall := !out.passes } } : Line) = line := by
    have hascent : out.line.ascent = most (·.ascent) := congrArg (·.1) hbox
    have hdescent : out.line.descent = most (·.descent) := congrArg (·.2.1) hbox
    have hgap : out.line.gap = most (·.gap) := congrArg (·.2.2) hbox
    rw [hpasses, Bool.not_not]
    show _ = ({ out.line with
      count := l.entries.length, baseline := baseline, ascent := most (·.ascent), descent := most (·.descent), gap := most (·.gap)
      flags := { out.line.flags with
        forced := l.forced, overwide := l.overwide, hyphenated := l.hyphenated, paraFirst := first, paraLast := l.paraLast
        overtall := decide (2240 - page.frame.bottom < baseline + most (·.descent)) } } : Line)
    rw [← hascent, ← hdescent, ← hgap, ← hbase]
    rfl
  rw [commit_cases hp]
  refine if_congr ?_ rfl ?_
  · show (decide (160 ≤ page.lines.length) || (!page.lines.isEmpty && !out.passes)) = true ↔ _
    simp [hpasses]
  · show Commit.placed ((s.setComp (s.comp.lineTaken l.entries.length)).setPlanes (Planes.setPixels _ i
      (drawLine (s.setComp (s.comp.lineTaken l.entries.length)) (page.withLine out) _ { out.line with flags := { out.line.flags with overtall := !out.passes } }))) = _
    rw [drawLine_congr (s := s) (t := s.setComp (s.comp.lineTaken l.entries.length)) rfl rfl rfl, Page.withLine, hline]
    rfl

end

section
/-! PROOFS. 4.4, 4.5 and chapter 6: PAGE_FULL handling, the ends and openings of paragraphs, and the opening and closing of pages. -/

namespace Sys2Proof.Machine

open Sys2Proof

variable {s t u : State} {r : Record} {rest : List Record} {i : PlaneId} {page : Page}

theorem Planes.setPage_setPart {p : Planes} {x : Held} (h : (p.get i).held = some x) (page : Page) (part : Part) :
    (p.setPage i page).setPart i part = p.set i { p.get i with held := some { part, page } } := by
  cases i <;> simp only [Planes.get] at h <;> simp only [Planes.setPage, Planes.setPart, Planes.set, Planes.get, h, Option.map_some]

theorem composingPage_held (h : s.composingPage = some (i, page)) : (s.planes.get i).held = some { part := .composing, page := page } :=
  (Planes.pageOf_eq_some _ _ h).2

theorem keptAtFull_eq (c : Nat) (n : Note) : n.keptAtFull c =
    if c ≤ n.start then none
    else match n.stop with
      | none => some { n with stop := some (c - 1), closedByPage := true }
      | some e => if e < c then some n else some { n with stop := some (c - 1), closedByPage := true } := by
  unfold Note.keptAtFull
  cases n.stop <;> rfl

theorem movedAtFull_eq (c : Nat) (n : Note) : n.movedAtFull c =
    if c ≤ n.start then some { n with start := n.start - c, stop := n.stop.map (· - c) }
    else match n.stop with
      | none => some { n with start := 0, continued := true, closedByPage := false }
      | some e => if e < c then none else some { n with start := 0, stop := some (e - c), continued := true } := by
  unfold Note.movedAtFull
  cases n.stop <;> rfl

/-- R123: what a page's close makes of its notes. -/
theorem atClose_eq (g : Nat) (n : Note) : n.atClose g = match n.stop with
    | some _ => some n
    | none => if n.start < g then some { n with stop := some (g - 1), closedByPage := true } else none := by
  unfold Note.atClose
  cases n.stop <;> rfl

/-- R103 and R123: a page's close. -/
theorem closePage_eq (h : s.composingPage = some (i, page)) : s.closePage = withEvent { s with
    planes := s.planes.set i { s.planes.get i with
      held := some { part := .ready, page := { page with notes := page.notes.filterMap (Note.atClose page.glyphCount) } } }
    notes := { s.notes with openIds := [] }
    comp := { s.comp with state := .idle, buffer := [], nextOrdinal := 0, para := none } } .pageReady := by
  unfold State.closePage
  rw [h]
  dsimp only
  rw [Planes.setPage_setPart (composingPage_held h)]
  rfl

theorem closePage_ring (s : State) : s.closePage.ring = s.ring := by
  unfold State.closePage
  split <;> rfl

/-- R71: a paragraph's end. -/
theorem endParagraph_eq (s : State) : s.endParagraph = if s.comp.buffer = [] then .placed { s with comp := { s.comp with para := none } }
    else match s.commit (lastLine s.comp.buffer) with
      | .placed u => .placed { u with comp := { u.comp with para := none } }
      | .full u => .full u := by
  unfold State.endParagraph
  dsimp only
  refine if_congr List.isEmpty_iff rfl ?_
  cases s.commit (lastLine s.comp.buffer) <;> rfl

theorem endParagraph_ring {c : Commit} (h : s.endParagraph = c) : c.state.ring = s.ring := by
  subst h
  exact (endParagraph_frame s).ring_eq

/-- R73: the page that a placed line leaves open has the frame it had. -/
theorem commit_placed_page {l : EndingLine} (h : s.composingPage = some (i, page)) (hc : s.commit l = .placed t) :
    ∃ page', t.composingPage = some (i, page') ∧ page'.frame = page.frame := by
  rw [commit_cases h] at hc
  split at hc
  · cases hc
  · injection hc with ht
    obtain ⟨px, hpx⟩ := placeLine_eq s i page l.entries.length (layOut s page l)
    rw [hpx] at ht
    subst ht
    exact ⟨page.withLine (layOut s page l), (Planes.pageOf_setPixels ..).trans (Planes.pageOf_setPage h), rfl⟩

theorem endParagraph_placed_page (h : s.composingPage = some (i, page)) (he : s.endParagraph = .placed u) :
    ∃ page', u.composingPage = some (i, page') ∧ page'.frame = page.frame := by
  rw [endParagraph_eq] at he
  split at he
  · cases he
    exact ⟨page, h, rfl⟩
  · cases hc : s.commit (lastLine s.comp.buffer) with
    | full v =>
      rw [hc] at he
      cases he
    | placed v =>
      rw [hc] at he
      cases he
      exact commit_placed_page (t := v) h hc

/-- R70: a paragraph opens, its indent clamped to 64 less than the page's width. -/
theorem openParagraph_release (hp : u.composingPage = some (i, page)) (hring : u.ring = r :: rest) (a : Alignment) : (u.openParagraph r a).release =
    let opened : State := { u with ring := rest, comp := { u.comp with
      para := some { alignment := a, indent := min (r.u16 5) (page.frame.width - 64), spaceBefore := r.u8 7, firstDone := false } } }
    if page.frame.width - 64 < r.u16 5 then withEvent opened .paramClamped else opened := by
  unfold State.openParagraph
  rw [hp]
  dsimp only
  by_cases hc : page.frame.width - 64 < r.u16 5
  · rw [if_pos hc, decide_eq_true hc]
    exact release_of_ring (s := (u.raise .paramClamped).setComp _) hring
  · rw [if_neg hc, decide_eq_false hc]
    exact release_of_ring (s := u.setComp _) hring

theorem alignmentOf_eq (n : Nat) : alignmentOf n = if 4 ≤ n then none
    else some (if n = 0 then .justify else if n = 1 then .left else if n = 2 then .right else .center) := by
  match n with
  | 0 | 1 | 2 | 3 => rfl
  | n + 4 => simp [alignmentOf]

/-- R99: the frame clamp. -/
theorem clampFrame_eq (left right top bottom : Nat) : clampFrame left right top bottom =
    { left := if 1456 < left + right then min left 1456 else left
      right := if 1456 < left + right then 1456 - left else right
      top := if 2016 < top + bottom then min top 2016 else top
      bottom := if 2016 < top + bottom then 2016 - top else bottom
      clamped := decide (1456 < left + right ∨ 2016 < top + bottom) } := by
  unfold clampFrame clampPair
  simp only [Config.maxSideMargins, Config.maxEndMargins, Bool.decide_or]
  split_ifs <;> rfl

/-- R100 and R101: a PAGE_OPEN opens its page, or waits. -/
theorem startPage_eq (hring : u.ring = r :: rest) : u.startPage r =
    let frame := clampFrame (r.u16 8) (r.u16 10) (r.u16 12) (r.u16 14)
    let page := Page.fresh (BitVec.ofNat 32 (r.u32 4)) frame false []
    let v := if frame.clamped = true then withEvent u .paramClamped else u
    match u.planes.available with
    | some i => { v with
        ring := rest
        planes := u.planes.set i { held := some { part := .composing, page := page }, pixels := [] }
        comp := { u.comp with state := .composing, buffer := [], nextOrdinal := 0, para := none } }
    | none => { v with comp := { u.comp with state := .waitPlane (.opening page.number frame) } } := by
  unfold State.startPage State.raiseIf
  dsimp only
  by_cases hc : (clampFrame (r.u16 8) (r.u16 10) (r.u16 12) (r.u16 14)).clamped = true
  · rw [if_pos hc, if_pos hc, show (u.raise .paramClamped).planes = u.planes from rfl]
    cases u.planes.available with
    | none => rfl
    | some i => exact release_of_ring (s := (u.raise .paramClamped).openPage i _ _) hring
  · rw [if_neg hc, if_neg hc]
    cases u.planes.available with
    | none => rfl
    | some i => exact release_of_ring (s := u.openPage i _ _) hring

/-- R98: plane A comes before plane B. -/
theorem available_eq_some_iff {p : Planes} : p.available = some i ↔
    (p.get i).part = none ∧ (p.get i.other).part ≠ some .composing ∧ (p.get i.other).part ≠ some .ready ∧ (i = .b → (p.get .a).part ≠ none) := by
  have ha := Planes.availableAt_iff p .a
  have hb := Planes.availableAt_iff p .b
  unfold Planes.available
  cases i with
  | a =>
    by_cases h : p.availableAt .a = true
    · simpa [h] using ha.1 h
    · rw [if_neg h]
      refine ⟨fun he => ?_, fun ⟨h1, h2, h3, _⟩ => absurd (ha.2 ⟨h1, h2, h3⟩) h⟩
      split at he <;> cases he
  | b =>
    by_cases h : p.availableAt .a = true
    · rw [if_pos h]
      exact ⟨fun he => (by cases he), fun ⟨_, _, _, h4⟩ => absurd (ha.1 h).1 (h4 rfl)⟩
    · rw [if_neg h]
      by_cases h' : p.availableAt .b = true
      · rw [if_pos h']
        obtain ⟨h1, h2, h3⟩ := hb.1 h'
        refine ⟨fun _ => ⟨h1, h2, h3, fun _ h4 => h (ha.2 ⟨h4, ?_, ?_⟩)⟩, fun _ => rfl⟩
        · rw [show PlaneId.a.other = .b from rfl, h1]
          exact fun e => by cases e
        · rw [show PlaneId.a.other = .b from rfl, h1]
          exact fun e => by cases e
      · rw [if_neg h']
        exact ⟨fun he => (by cases he), fun ⟨h1, h2, h3, _⟩ => absurd (hb.2 ⟨h1, h2, h3⟩) h'⟩

end Sys2Proof.Machine
end

section

open Sys2Proof Sys2Proof.Machine

/-- Settles O27: the notes moved are the continuation's list, the faces those of the committed lines. -/
theorem pageFullCarriesTheBuffer : Obligations.PageFullCarriesTheBuffer := by
  intro s i page hp c keep move
  have hc : firstCarried page s.comp.buffer = c := by
    unfold firstCarried
    show _ = (match s.comp.buffer with | [] => page.glyphCount | e :: _ => e.ordinal)
    cases s.comp.buffer <;> rfl
  have hkeep : Note.keptAtFull c = keep := funext (keptAtFull_eq c)
  have hmove : Note.movedAtFull c = move := funext (movedAtFull_eq c)
  refine ⟨heldNotes c page.notes, faceSetOf page.placements, hmove ▸ heldNotes_perm c page.notes, foldr_insertNote_sorted _, fun h => mem_faceSetOf, ?_⟩
  rw [pageFull_eq hp, hc, Planes.setPage_setPart (composingPage_held hp), Page.closedFull, hkeep]
  rfl

/-- Settles O28: the end of a paragraph, and the two records that make it. -/
theorem paragraphsOpenAndEnd : Obligations.ParagraphsOpenAndEnd := by
  intro s r rest i page ht hp absent width open_
  have hopen {u : State} {page' : Page} (hu : u.composingPage = some (i, page')) (hf : page'.frame = page.frame) (hring : u.ring = s.ring) (a : Machine.Alignment) :
      (u.openParagraph r a).release = open_ a u := by
    rw [openParagraph_release hu (hring.trans ht.1), hf]
    rfl
  refine ⟨(endParagraph_eq s).trans (if_congr Iff.rfl rfl ?_), fun hk hlen => ?_, fun hk hlen => ?_⟩
  · show _ = match s.commit (lastLine s.comp.buffer) with
      | .placed u => Commit.placed (absent u)
      | .full u => .full u
    cases s.commit (lastLine s.comp.buffer) <;> rfl
  · refine congrArg Host.Outcome.next ((takeRecord_inPage_of_body ht hk hlen).trans ?_)
    cases he : s.endParagraph with
    | full u => rfl
    | placed u => exact release_of_ring (s := u) ((endParagraph_ring he).trans ht.1)
  · refine congrArg Host.Outcome.next ((takeRecord_inPage_of_body ht hk hlen).trans ?_)
    rw [alignmentOf_eq]
    by_cases hbad : 4 ≤ r.u8 4
    · rw [if_pos hbad, if_pos hbad]
      exact raise_release_of_takes ht.takes .recordError
    rw [if_neg hbad, if_neg hbad]
    dsimp only
    cases hpara : s.comp.para with
    | none =>
      rw [if_pos rfl]
      exact hopen hp rfl rfl _
    | some p =>
      rw [if_neg (Option.some_ne_none p), if_pos (show (some p).isSome = true from rfl)]
      cases he : s.endParagraph with
      | full u => rfl
      | placed u =>
        obtain ⟨page', hu, hf⟩ := endParagraph_placed_page hp he
        exact hopen hu hf (endParagraph_ring he) _

/-- Settles O29: in IDLE, and in COMPOSING after the close. -/
theorem pageOpenOpensOrWaits : Obligations.PageOpenOpensOrWaits := by
  intro s r rest ht hk hlen left right top bottom frame page start
  have hstart {u : State} (hu : u.ring = s.ring) : u.startPage r = start u := by
    rw [startPage_eq (hu.trans ht.1), clampFrame_eq]
    show _ = match u.planes.available with
      | some i => _
      | none => _
    cases u.planes.available <;> rfl
  refine ⟨fun hs => ?_, fun hs => ?_⟩ <;> refine congrArg Host.Outcome.next ((takeRecord_anywhere_of_body ht hk hlen).trans ?_) <;> rw [hs]
  · exact hstart rfl
  · dsimp only
    cases he : s.endParagraph with
    | full u => rfl
    | placed u => exact hstart (u := u.closePage.raise .sequenceError) ((closePage_ring u).trans (endParagraph_ring he))

/-- Settles O30: the close, and the record's two forms. -/
theorem pageCloseClosesThePage : Obligations.PageCloseClosesThePage := by
  refine ⟨fun s i page hp => ?_, fun s r rest ht hk hlen => ?_⟩
  · intro close
    have hclose : Note.atClose page.glyphCount = close := funext (atClose_eq page.glyphCount)
    rw [closePage_eq hp, hclose]
  · refine congrArg Host.Outcome.next ((takeRecord_inPage_of_body ht hk hlen).trans ?_)
    by_cases hbad : 1 < r.u8 4
    · rw [if_pos hbad, if_pos hbad]
      exact raise_release_of_takes ht.takes .recordError
    rw [if_neg hbad, if_neg hbad]
    cases he : s.endParagraph with
    | full u => rfl
    | placed u =>
      have hring : u.closePage.ring = r :: rest := (closePage_ring u).trans ((endParagraph_ring he).trans ht.1)
      dsimp only
      by_cases hform : r.u8 4 = 0
      · rw [if_pos hform, if_neg (by omega)]
        exact release_of_ring hring
      · rw [if_neg hform, if_pos (by omega), State.flipReady]
        cases u.closePage.planes.find .ready with
        | none => exact release_of_ring hring
        | some i => rfl

/-- Settles O31: which plane is available, and what a grant does with it. -/
theorem grantOpensThePendingPage : Obligations.GrantOpensThePendingPage := by
  refine fun s => ⟨fun i => available_eq_some_iff, fun h => ?_, fun i number frame hh hi hs => ?_, fun i number frame notes hh hi hs => ?_⟩
  · by_cases hhold : s.cmd.streamHold = 0
    · rcases grant_cases s with he | ⟨number, frame, i, hs, hi, -⟩ | ⟨number, frame, notes, i, hs, hi, -⟩
      · exact he
      all_goals
        rcases h with h | h | h
        · exact absurd hhold h
        · rw [h] at hi
          cases hi
        · rw [hs] at h
          cases h
    · exact if_pos (bne_iff_ne.2 hhold)
  · unfold State.grant
    rw [if_neg (by simp [hh]), hs, hi]
    rfl
  · unfold State.grant
    rw [if_neg (by simp [hh]), hs, hi]
    rfl

end

section
/-! PROOFS. 6.6 and 6.7: the flip, PAGE_SHOW and PAGE_DROP. -/

namespace Sys2Proof.Machine

open Sys2Proof

variable {s : State} {r : Record} {rest : List Record} {i : PlaneId} {page : Page}

/-- R106: what a flip does to the old front page's plane. -/
def frontRetired (p : Planes) (l : LaneController) : Planes :=
  match p.find .shown with
  | none => p
  | some old => p.set old { p.get old with
      held := if l.lane.toList.any (fun x => x.sendsFrom old) = true then (p.get old).held.map fun h => { h with part := .retiring } else none }

theorem flipPlanes_eq (p : Planes) (l : LaneController) (i : PlaneId) : flipPlanes p l i =
    { ((frontRetired p l).set i { (frontRetired p l).get i with held := ((frontRetired p l).get i).held.map fun h => { h with part := .shown } }) with
      showPending := true, showing := [] } := by
  have hfront : (match p.find .shown with
      | none => p
      | some old => if l.sendsFrom old then p.setPart old .retiring else p.free old) = frontRetired p l := by
    unfold frontRetired
    cases p.find .shown with
    | none => rfl
    | some old =>
      dsimp only
      show (if l.lane.toList.any (fun x => x.sendsFrom old) = true then _ else _) = _
      split <;> rfl
  rw [← hfront]
  rfl

/-- R162 and R163: the flip request is the queue's one member. -/
theorem flipRequest_eq (s : State) : s.flipRequest = { s with
    planner := { s.planner with
      queue := [{ source := .flip, priority := s.params.priorityFlip, mode := if flipFull s.planner s.params.fullEvery then .full else .grey,
                  rect := { c0 := 0, r0 := 0, c1 := 29, r1 := 39 } }]
      flipCounter := if flipFull s.planner s.params.fullEvery then 0 else s.planner.flipCounter + 1, fullNext := false }
    notes := { s.notes with tiles := [], chain := 0, coalesce := none } } := rfl

/-- R131: a held paint ends with a flip. -/
theorem supersede_eq (s : State) : s.supersede = match s.cmd.executing with
    | none => s
    | some h => State.commandRefused { s with cmd := { s.cmd with executing := none } } .superseded h.command.kind h.command.tag h.id h.ordinal := by
  unfold State.supersede
  cases s.cmd.executing <;> rfl

end Sys2Proof.Machine
end

section

open Sys2Proof Sys2Proof.Machine

/-- Settles O32: part by part. -/
theorem flipShowsTheReadyPage : Obligations.FlipShowsTheReadyPage := by
  intro s i _ front full request shown ended
  have hfront : frontRetired s.planes s.lanes = front := by
    unfold frontRetired
    show _ = match s.planes.find .shown with
      | none => s.planes
      | some old => _
    cases s.planes.find .shown <;> rfl
  have hshown : (s.setPlanes (flipPlanes s.planes s.lanes i)).flipRequest = shown := by
    rw [flipPlanes_eq, hfront]
    exact flipRequest_eq _
  have hended : shown.supersede = ended := by
    refine (supersede_eq shown).trans ?_
    show (match s.cmd.executing with
      | none => shown
      | some h => _) = match s.cmd.executing with
        | none => shown
        | some h => _
    cases s.cmd.executing <;> rfl
  rw [State.flip, hshown, hended]

/-- Settles O33: by the READY plane. -/
theorem showAndDropActOnTheReadyPage : Obligations.ShowAndDropActOnTheReadyPage := by
  intro s r rest hc t
  refine ⟨fun hk => ?_, fun hk => ?_⟩
  · refine congrArg Host.Outcome.next ((execute_of_commands hc hk _).trans ?_)
    show (match s.planes.find .ready with
      | none => _
      | some i => _) = _
    cases s.planes.find .ready with
    | none => rfl
    | some i => exact flip_queueHold (s.setCmd { s.cmd with queued := rest }) i
  · refine congrArg Host.Outcome.next ((executeReleasing_of_commands hc hk _).trans ?_)
    show (match t.planes.find .ready with
      | none => _
      | some i => _) = _
    cases t.planes.find .ready <;> rfl

end

section
/-! PROOFS. Chapter 7: stream notes, and live paints and erases. -/

namespace Sys2Proof.Machine

open Sys2Proof

variable {s : State} {r : Record} {rest : List Record} {i : PlaneId} {page : Page}

theorem toneOf_eq (style : NoteStyle) (tone : Nat) : toneOf style tone = if style = .shade then max 1 (min 11 tone) else 0 := by
  unfold toneOf
  rw [clampNat_eq (by decide)]

theorem toneClamped_iff (style : NoteStyle) (tone : Nat) : toneClamped style tone = true ↔ style = .shade ∧ (tone < 1 ∨ 11 < tone) := by
  simp [toneClamped]

/-- R118: the checks of a NOTE_OPEN in order. -/
theorem noteOpenRefusal_eq (s : State) (page : Page) (id : Nat) : noteOpenRefusal s page id =
    if id = 0 then some .badId
    else if (page.notes.any fun n => n.id == id) = true then some .duplicate
    else if 8 ≤ s.notes.openIds.length then some .openFull
    else if 64 ≤ page.notes.length then some .listFull
    else none := by
  have hany : (findNote id page.notes).isSome = page.notes.any fun n => n.id == id := List.isSome_find? ..
  unfold noteOpenRefusal
  rw [hany]

theorem release_noteFault (h : s.ring = r :: rest) (why : NoteReason) (v n : Nat) :
    (s.noteFault why r v n).release = State.noteFault { s with ring := rest } why r v n := release_of_ring (s := s.noteFault why r v n) h

/-- R117 and R118: an accepted NOTE_OPEN. -/
theorem openNote_release (h : s.ring = r :: rest) (page : Page) (i : PlaneId) (style : NoteStyle) : (s.openNote page i r style).release =
    let n : Note := { id := r.u16 4, style := style, tone := if style = .shade then max 1 (min 11 (r.u8 7)) else 0, start := s.comp.nextOrdinal, stop := none,
                      continued := false, closedByPage := false, live := false }
    let opened : State := { s with
      ring := rest
      planes := s.planes.setPage i { page with notes := insertNote n page.notes }
      notes := { s.notes with openIds := s.notes.openIds ++ [r.u16 4] } }
    if style = .shade ∧ (r.u8 7 < 1 ∨ 11 < r.u8 7) then withEvent opened .paramClamped else opened := by
  unfold State.openNote State.raiseIf
  dsimp only
  rw [toneOf_eq]
  by_cases hc : style = .shade ∧ (r.u8 7 < 1 ∨ 11 < r.u8 7)
  · rw [if_pos hc, if_pos ((toneClamped_iff ..).2 hc)]
    exact release_of_ring (s := ((s.raise .paramClamped).setPlanes _).setNotes _) h
  · rw [if_neg hc, if_neg (mt (toneClamped_iff ..).1 hc)]
    exact release_of_ring (s := (s.setPlanes _).setNotes _) h

/-! ### Live paints and erases -/

theorem range_eq (n : Note) : n.range = (n.stop.map fun e => (n.start, e)).toList := by
  unfold Note.range
  cases n.stop <;> rfl

/-- R127 to R130: a note list rewritten, the timers restarted, the lines drawn or held. -/
theorem repaint_eq (s : State) (r : Record) (i : PlaneId) (page : Page) (notes : List Note) (ranges : List (Nat × Nat)) (ordinal : Nat) :
    s.repaint r i page notes ranges ordinal = State.rerender { s with
      planes := s.planes.setPage i { page with notes := notes }
      notes := { s.notes with coalesce := some { due := s.tick + BitVec.ofNat 32 s.params.coalescing, passed := false } }
      planner := { s.planner with settle := some { due := s.tick + BitVec.ofNat 32 s.params.settle, passed := false } } }
      { command := r, lines := touchedLines page.lines ranges, tiles := rerenderTiles page.lines (touchedLines page.lines ranges), id := r.u16 4,
        ordinal := ordinal } := rfl

/-- R126: the checks of a NOTE_PAINT on a front page, in order. -/
theorem paintRefusal_eq (i : PlaneId) (page : Page) (r : Record) : paintRefusal (some (i, page)) r =
    if r.u16 4 = 0 then some .badId
    else match styleOf (r.u8 6) with
      | none => some .badStyle
      | some _ =>
        if page.glyphCount ≤ min (r.u16 8) (r.u16 10) then some .range
        else if page.notes.find? (fun n => n.id == r.u16 4) = none ∧ 64 ≤ page.notes.length then some .listFull
        else none := by
  refine if_congr Iff.rfl rfl ?_
  cases styleOf (r.u8 6) with
  | none => rfl
  | some style =>
    refine (if_neg (by simp)).trans (if_congr Iff.rfl rfl (if_congr ?_ rfl rfl))
    rw [Bool.and_eq_true, Option.isNone_iff_eq_none, decide_eq_true_eq]
    rfl

/-- R127: an accepted NOTE_PAINT. -/
theorem paint_eq (s : State) (r : Record) (i : PlaneId) (page : Page) (style : NoteStyle) : s.paint r i page style =
    State.repaint { s with events := if min (max (r.u16 8) (r.u16 10)) (page.glyphCount - 1) < max (r.u16 8) (r.u16 10) ∨
        (style = .shade ∧ (r.u8 7 < 1 ∨ 11 < r.u8 7)) then s.events.mark .paramClamped else s.events }
      r i page (insertNote (paintedNote r style page.glyphCount) (page.notes.filter fun m => m.id != r.u16 4))
      ((min (r.u16 8) (r.u16 10), min (max (r.u16 8) (r.u16 10)) (page.glyphCount - 1)) ::
        (match page.notes.find? (fun n => n.id == r.u16 4) with
          | some m => (m.stop.map fun e => (m.start, e)).toList
          | none => [])) (min (r.u16 8) (r.u16 10)) := by
  have hclamped : (decide (page.glyphCount - 1 < paintEnd r) || toneClamped style (r.u8 7)) = true ↔
      min (max (r.u16 8) (r.u16 10)) (page.glyphCount - 1) < max (r.u16 8) (r.u16 10) ∨ (style = .shade ∧ (r.u8 7 < 1 ∨ 11 < r.u8 7)) := by
    rw [Bool.or_eq_true, decide_eq_true_eq, toneClamped_iff, min_lt_iff, or_iff_right (lt_irrefl _)]
    rfl
  have hold : (match findNote (r.u16 4) page.notes with
      | some m => m.range
      | none => []) = (match page.notes.find? (fun n => n.id == r.u16 4) with
        | some m => (m.stop.map fun e => (m.start, e)).toList
        | none => []) := by
    unfold findNote
    cases page.notes.find? (fun n => n.id == r.u16 4) with
    | none => rfl
    | some m => exact range_eq m
  rw [← hold, ← if_congr hclamped rfl rfl]
  unfold State.paint
  dsimp only
  rw [raiseIf_eq]
  rfl

end Sys2Proof.Machine
end

section

open Sys2Proof Sys2Proof.Machine

/-- Settles O34: each outcome of the checks, and the insertion. -/
theorem streamNotesOpenAndClose : Obligations.StreamNotesOpenAndClose := by
  intro s r rest i page ht hp id next done refuse
  have hring := ht.1
  refine ⟨fun hk hlen => ?_, fun hk hlen => ⟨fun hid => ?_, fun n hid hn => ?_⟩, fun n l => ⟨insertNote_perm n l, insertNote_sorted⟩⟩
  · refine congrArg Host.Outcome.next ((takeRecord_inPage_of_body ht hk hlen).trans ?_)
    rw [hp]
    cases styleOf (r.u8 6) with
    | none => exact raise_release_of_takes ht.takes .recordError
    | some style =>
      dsimp only
      rw [noteOpenRefusal_eq]
      split_ifs
      case pos | pos | pos | pos => exact release_noteFault hring _ _ _
      all_goals
        refine (openNote_release hring page i style).trans ?_
        dsimp only
        split_ifs
        rfl
  · refine congrArg Host.Outcome.next ((takeRecord_inPage_of_body ht hk hlen).trans ?_)
    rw [if_neg (by simpa using hid)]
    exact release_noteFault hring _ _ _
  · intro left
    refine congrArg Host.Outcome.next ((takeRecord_inPage_of_body ht hk hlen).trans ?_)
    have hclose : closeNote next id page.notes = left := by
      unfold closeNote
      rw [show findNote id page.notes = some n from hn]
      rfl
    rw [if_pos (by simpa using hid), State.mapComposingPage, hp]
    dsimp only
    rw [show closeNote s.comp.nextOrdinal (r.u16 4) page.notes = left from hclose]
    exact release_of_ring (s := (s.setPlanes _).setNotes _) hring

/-- Settles O35: each outcome of the checks, and the rewriting of the note list. -/
theorem paintAndEraseRewriteTheFrontPage : Obligations.PaintAndEraseRewriteTheFrontPage := by
  intro s r rest hc id start stop done accepted
  refine ⟨fun hk _ => ?_, fun hk _ => ?_⟩ <;> refine congrArg Host.Outcome.next ((execute_of_commands hc hk _).trans ?_)
  · show (match paintRefusal s.frontPage r, s.frontPage, styleOf (r.u8 6) with
      | some why, _, _ => _
      | none, some (i, page), some style => _
      | none, _, _ => _) = _
    cases s.frontPage with
    | none => rfl
    | some p =>
      obtain ⟨i, page⟩ := p
      rw [paintRefusal_eq]
      by_cases hid : id = 0
      · rw [if_pos (show r.u16 4 = 0 from hid)]
        exact (if_pos hid).symm
      rw [if_neg (show ¬ r.u16 4 = 0 from hid)]
      dsimp only
      rw [if_neg hid]
      cases styleOf (r.u8 6) with
      | none => rfl
      | some style =>
        dsimp only
        by_cases hrange : page.glyphCount ≤ start
        · rw [if_pos hrange]
          exact (if_pos hrange).symm
        rw [if_neg hrange, if_neg hrange]
        by_cases hfull : page.notes.find? (fun n => n.id == id) = none ∧ 64 ≤ page.notes.length
        · rw [if_pos hfull]
          exact (if_pos hfull).symm
        · rw [if_neg hfull, if_neg hfull]
          dsimp only
          rw [paint_eq, repaint_eq, paintedNote, toneOf_eq]
          rfl
  · show (match s.frontPage with
      | none => _
      | some (i, page) => _) = _
    cases s.frontPage with
    | none => rfl
    | some p =>
      obtain ⟨i, page⟩ := p
      dsimp only
      show (match page.notes.find? (fun n => n.id == id) with
        | none => _
        | some n => _) = _
      cases hn : page.notes.find? (fun n => n.id == id) with
      | none => rfl
      | some n =>
        dsimp only
        rw [show n.id = id from by simpa using List.find?_some hn, repaint_eq, range_eq]
        rfl

end

section
/-! PROOFS. 7.7 and 7.8: re-renders, the hold set and its release. -/

namespace Sys2Proof.Machine

open Sys2Proof

variable {s : State} {i : PlaneId} {page : Page}

/-! ### Lines and tiles -/

theorem positionsFrom_sorted {α : Type} (p : α → Bool) (i : Nat) (l : List α) : (positionsFrom p i l).Pairwise (· < ·) := by
  induction l generalizing i with
  | nil => exact .nil
  | cons x t ih =>
    unfold positionsFrom
    split
    · exact .cons (fun k hk => ((mem_positionsFrom p (i + 1) k t).1 hk).1) (ih (i + 1))
    · exact ih (i + 1)

/-- R129: a line holds an ordinal of a range. -/
theorem touches_iff (l : Line) (q : Nat × Nat) : l.touches q = true ↔ ∃ o, l.first ≤ o ∧ o < l.first + l.count ∧ q.1 ≤ o ∧ o ≤ q.2 := by
  simp only [Line.touches, Bool.and_eq_true, decide_eq_true_eq]
  constructor
  · rintro ⟨⟨⟨h1, h2⟩, h3⟩, h4⟩
    exact ⟨max l.first q.1, by omega, by omega, by omega, by omega⟩
  · rintro ⟨o, h1, h2, h3, h4⟩
    omega

theorem mem_touchedLines (lines : List Line) (ranges : List (Nat × Nat)) (k : Nat) : k ∈ touchedLines lines ranges ↔
    ∃ l, lines[k]? = some l ∧ ∃ q ∈ ranges, ∃ o, l.first ≤ o ∧ o < l.first + l.count ∧ q.1 ≤ o ∧ o ≤ q.2 := by
  unfold touchedLines
  simp only [mem_positionsFrom, Nat.zero_le, true_and, Nat.sub_zero, List.any_eq_true, touches_iff]

/-- R129: the tile rows that a line's band meets. -/
theorem mem_tileRows (l : Line) (r : Nat) : r ∈ l.tileRows ↔ ∃ y, l.bandLo ≤ y ∧ y < l.bandHi ∧ r = y / 56 := by
  unfold Line.tileRows
  split
  · next h =>
    simp only [List.mem_range'_1, Config.tileSide]
    constructor
    · intro hr
      exact ⟨max l.bandLo (56 * r), by omega, by omega, by omega⟩
    · rintro ⟨y, h1, h2, rfl⟩
      omega
  · next h =>
    constructor
    · intro hr
      cases hr
    · rintro ⟨y, h1, h2, -⟩
      omega

/-- R129: the tiles of a re-render are all tiles of the rows that its lines' bands meet. -/
theorem mem_rerenderTiles (lines : List Line) (idx : List Nat) (k : Nat) : k ∈ rerenderTiles lines idx ↔
    ∃ j ∈ idx, ∃ l, lines[j]? = some l ∧ ∃ y, l.bandLo ≤ y ∧ y < l.bandHi ∧ k / 30 = y / 56 := by
  have hrow (r : Nat) : k ∈ List.range' (r * Config.tileColumns) Config.tileColumns ↔ r = k / 30 := by
    simp only [List.mem_range'_1, Config.tileColumns]
    omega
  have hline (j : Nat) : k / 30 ∈ ((lines[j]?).map Line.tileRows).getD [] ↔ ∃ l, lines[j]? = some l ∧ ∃ y, l.bandLo ≤ y ∧ y < l.bandHi ∧ k / 30 = y / 56 := by
    cases lines[j]? with
    | none => simp
    | some l => simp [mem_tileRows]
  simp only [rerenderTiles, List.mem_flatMap, hrow, exists_eq_right, mem_foldr_insertNat, List.not_mem_nil, or_false, hline]

/-- R130: a lane is SENDING one of the tiles from the plane. -/
theorem sendConflict_iff_sending (l : LaneController) (plane : PlaneId) (tiles : List Nat) : sendConflict l plane tiles = true ↔
    ∃ x ∈ l.lane.toList, x.state = .sending ∧ ∃ u, x.update = some u ∧ u.plane = plane ∧ ∃ k ∈ tiles, u.rect.has k = true := by
  unfold sendConflict
  rw [List.any_eq_true]
  refine exists_congr fun x => and_congr_right fun _ => ?_
  unfold Lane.sendsFrom
  cases x.update with
  | none => simp
  | some u => simp [and_assoc]

theorem rerender_eq (h : s.frontPage = some (i, page)) (x : HeldPaint) : s.rerender x =
    if sendConflict s.lanes i x.tiles = true then { s with cmd := { s.cmd with executing := some x } }
    else State.joinHold { s with
      planes := s.planes.setPixels i ((x.lines.filterMap fun k => page.lines[k]?).foldl (drawLine s page) (s.planes.get i).pixels) } x.tiles := by
  unfold State.rerender State.redraw
  rw [h]
  rfl

/-! ### The release -/

theorem releaseHold_of_nil (h : s.notes.tiles = []) : s.releaseHold = { s with notes := { s.notes with tiles := [], chain := 0, coalesce := none } } := by
  unfold State.releaseHold State.queueHold
  rw [h]
  rfl

theorem releaseHold_of_some {q : Rect} (h : boundingBox s.notes.tiles = some q) : s.releaseHold = attemptDispatch { s with
    notes := { s.notes with tiles := [], chain := 0, coalesce := none }
    planner := { s.planner with queue := enqueue s.planner.queue { source := .paint, priority := s.params.priorityPaint, mode := .fast, rect := q } } } := by
  unfold State.releaseHold State.queueHold
  rw [h]
  rfl

theorem boundingBox_eq_none {tiles : List Nat} : boundingBox tiles = none ↔ tiles = [] := by
  cases tiles with
  | nil => exact iff_of_true rfl rfl
  | cons k t =>
    unfold boundingBox
    cases boundingBox t <;> simp

theorem has_iff (q : Rect) (k : Nat) : q.has k = true ↔ q.c0 ≤ k % 30 ∧ k % 30 ≤ q.c1 ∧ q.r0 ≤ k / 30 ∧ k / 30 ≤ q.r1 := by
  have h : q.has k = true ↔ q.c0 ≤ tileColumn k ∧ tileColumn k ≤ q.c1 ∧ q.r0 ≤ tileRow k ∧ tileRow k ≤ q.r1 := by
    simp only [Rect.has, Bool.and_eq_true, decide_eq_true_eq, and_assoc]
  exact h

/-- R134: the bounding box has every tile, and lies in every rectangle that does. -/
theorem boundingBox_least {tiles : List Nat} {q : Rect} (h : boundingBox tiles = some q) : (∀ k ∈ tiles, q.has k = true) ∧
    ∀ p : Rect, (∀ k ∈ tiles, p.has k = true) → p.c0 ≤ q.c0 ∧ q.c1 ≤ p.c1 ∧ p.r0 ≤ q.r0 ∧ q.r1 ≤ p.r1 := by
  have hof (k : Nat) : Rect.ofTile k = { c0 := k % 30, r0 := k / 30, c1 := k % 30, r1 := k / 30 } := rfl
  simp only [has_iff]
  induction tiles generalizing q with
  | nil => cases h
  | cons k t ih =>
    simp only [List.forall_mem_cons]
    unfold boundingBox at h
    cases hb : boundingBox t with
    | none =>
      rw [hb] at h
      cases h
      rw [boundingBox_eq_none] at hb
      subst hb
      rw [hof]
      exact ⟨⟨by simp, by simp⟩, fun p hp => ⟨hp.1.1, hp.1.2.1, hp.1.2.2.1, hp.1.2.2.2⟩⟩
    | some b =>
      rw [hb] at h
      cases h
      obtain ⟨hall, hleast⟩ := ih hb
      rw [hof]
      refine ⟨⟨⟨min_le_left .., le_max_left .., min_le_left .., le_max_left ..⟩, fun j hj => ?_⟩, fun p ⟨hk, ht⟩ => ?_⟩
      · obtain ⟨h1, h2, h3, h4⟩ := hall j hj
        exact ⟨(min_le_right ..).trans h1, h2.trans (le_max_right ..), (min_le_right ..).trans h3, h4.trans (le_max_right ..)⟩
      · obtain ⟨h1, h2, h3, h4⟩ := hleast p ht
        exact ⟨le_min hk.1 h1, max_le hk.2.1 h2, le_min hk.2.2.1 h3, max_le hk.2.2.2 h4⟩

end Sys2Proof.Machine
end

section

open Sys2Proof Sys2Proof.Machine

/-- Settles O36: lines and tiles by membership, and the re-render by the conflict. -/
theorem rerenderDrawsOrIsHeld : Obligations.RerenderDrawsOrIsHeld := by
  refine ⟨fun lines ranges => ⟨positionsFrom_sorted _ _ _, mem_touchedLines lines ranges, mem_rerenderTiles lines⟩, fun s h i page hp => ?_⟩
  intro held drawn
  rw [rerender_eq hp]
  have hheld : sendConflict s.lanes i h.tiles = true ↔ held := sendConflict_iff_sending s.lanes i h.tiles
  exact ⟨fun hc => if_pos (hheld.2 hc), fun hc => if_neg (mt hheld.1 hc)⟩

/-- Settles O37: the release, and the bounding box by induction on the tiles. -/
theorem releaseRequestsTheBoundingBox : Obligations.ReleaseRequestsTheBoundingBox :=
  ⟨fun _ => ⟨releaseHold_of_nil, fun _ => releaseHold_of_some⟩, fun _ => ⟨boundingBox_eq_none, fun _ => boundingBox_least⟩⟩

end

section
/-! PROOFS. 9.2 and 9.3: the dispatch order, and what an arrival does to the queue. -/

namespace Sys2Proof.Machine

open Sys2Proof

/-! ### The order of two requests -/

/-- R155: a request ahead of another, each with its place in the arrival order. -/
def AheadOf (a b : Nat × Request) : Prop :=
  b.2.priority < a.2.priority ∨ (a.2.priority = b.2.priority ∧ b.2.source.rank < a.2.source.rank) ∨
    (a.2.priority = b.2.priority ∧ a.2.source.rank = b.2.source.rank ∧ a.1 < b.1)

theorem standsAhead_iff {q : List Request} {i j : Nat} :
    standsAhead q i j ↔ ∃ p p', q[i]? = some p ∧ q[j]? = some p' ∧ AheadOf (i, p) (j, p') := Iff.rfl

theorem AheadOf.trans {a b c : Nat × Request} (h : AheadOf a b) (k : AheadOf b c) : AheadOf a c := by
  unfold AheadOf at *
  omega

theorem AheadOf.asymm {a b : Nat × Request} (h : AheadOf a b) : ¬ AheadOf b a := by
  unfold AheadOf at *
  omega

theorem AheadOf.irrefl (a : Nat × Request) : ¬ AheadOf a a := by
  unfold AheadOf
  omega

/-- R155: of an earlier and a later arrival, one stands ahead. -/
theorem ahead_iff {a b : Nat × Request} (h : a.1 < b.1) : (a.2.ahead b.2 = true ↔ AheadOf a b) ∧ (¬ a.2.ahead b.2 = true → AheadOf b a) := by
  simp only [Request.ahead, Bool.or_eq_true, Bool.and_eq_true, decide_eq_true_eq, beq_iff_eq]
  unfold AheadOf
  omega

/-! ### The dispatch order -/

theorem mem_numberedFrom {i : Nat} {q : List Request} {a : Nat × Request} : a ∈ numberedFrom i q ↔ i ≤ a.1 ∧ q[a.1 - i]? = some a.2 := by
  obtain ⟨k, r⟩ := a
  induction q generalizing i with
  | nil => simp [numberedFrom]
  | cons x t ih =>
    rw [numberedFrom, List.mem_cons, ih, Prod.mk.injEq]
    dsimp only
    constructor
    · rintro (⟨rfl, rfl⟩ | ⟨hle, h⟩)
      · simp
      · refine ⟨by omega, ?_⟩
        rw [show k - i = (k - (i + 1)) + 1 by omega]
        exact h
    · rintro ⟨hle, h⟩
      rcases Nat.eq_or_lt_of_le hle with rfl | hlt
      · rw [Nat.sub_self] at h
        exact .inl ⟨rfl, (Option.some.inj h).symm⟩
      · rw [show k - i = (k - (i + 1)) + 1 by omega] at h
        exact .inr ⟨hlt, h⟩

theorem numberedFrom_sorted (i : Nat) (q : List Request) : (numberedFrom i q).Pairwise fun a b => a.1 < b.1 := by
  induction q generalizing i with
  | nil => exact .nil
  | cons x t ih => exact .cons (fun a ha => (mem_numberedFrom.1 ha).1) (ih (i + 1))

theorem insertRequest_perm (a : Nat × Request) (l : List (Nat × Request)) : (insertRequest a l).Perm (a :: l) := by
  induction l with
  | nil => exact .refl _
  | cons b t ih =>
    unfold insertRequest
    split
    · exact .refl _
    · exact (ih.cons b).trans (.swap a b t)

theorem insertRequest_sorted {a : Nat × Request} {l : List (Nat × Request)} (ha : ∀ b ∈ l, a.1 < b.1) (h : l.Pairwise AheadOf) :
    (insertRequest a l).Pairwise AheadOf := by
  induction l with
  | nil => exact List.pairwise_singleton _ _
  | cons b t ih =>
    obtain ⟨hb, ht⟩ := List.pairwise_cons.1 h
    have hab := ahead_iff (ha b List.mem_cons_self)
    unfold insertRequest
    split
    · next hc =>
      have hahead := hab.1.1 hc
      refine .cons (fun c hc => ?_) h
      rcases List.mem_cons.1 hc with rfl | hc
      · exact hahead
      · exact hahead.trans (hb c hc)
    · next hc =>
      refine .cons (fun c hc => ?_) (ih (fun c hc => ha c (List.mem_cons_of_mem _ hc)) ht)
      rcases List.mem_cons.1 ((insertRequest_perm a t).mem_iff.1 hc) with rfl | hc
      · exact hab.2 ‹_›
      · exact hb c hc

theorem foldr_insertRequest {l : List (Nat × Request)} (h : l.Pairwise fun a b => a.1 < b.1) :
    (l.foldr insertRequest []).Perm l ∧ (l.foldr insertRequest []).Pairwise AheadOf := by
  induction l with
  | nil => exact ⟨.nil, .nil⟩
  | cons a t ih =>
    obtain ⟨ha, ht⟩ := List.pairwise_cons.1 h
    obtain ⟨hperm, hsorted⟩ := ih ht
    exact ⟨(insertRequest_perm a _).trans (hperm.cons a), insertRequest_sorted (fun b hb => ha b (hperm.mem_iff.1 hb)) hsorted⟩

/-- R155: the dispatch order holds every pending request, -/
theorem mem_dispatchOrder {q : List Request} {a : Nat × Request} : a ∈ dispatchOrder q ↔ q[a.1]? = some a.2 := by
  rw [dispatchOrder, (foldr_insertRequest (numberedFrom_sorted 0 q)).1.mem_iff, mem_numberedFrom]
  simp

/-- each ahead of those behind it. -/
theorem dispatchOrder_sorted (q : List Request) : (dispatchOrder q).Pairwise AheadOf := (foldr_insertRequest (numberedFrom_sorted 0 q)).2

theorem eq_of_mem_dispatchOrder {q : List Request} {a b : Nat × Request} (ha : a ∈ dispatchOrder q) (hb : b ∈ dispatchOrder q) (h : a.1 = b.1) : a = b := by
  have ha := mem_dispatchOrder.1 ha
  rw [h, mem_dispatchOrder.1 hb] at ha
  exact Prod.ext h (Option.some.inj ha).symm

theorem standsAhead_of_mem {q : List Request} {a b : Nat × Request} (ha : a ∈ dispatchOrder q) (hb : b ∈ dispatchOrder q) :
    standsAhead q a.1 b.1 ↔ AheadOf a b := by
  have ha := mem_dispatchOrder.1 ha
  have hb := mem_dispatchOrder.1 hb
  rw [standsAhead_iff]
  constructor
  · rintro ⟨p, p', hp, hp', h⟩
    rw [ha] at hp
    rw [hb] at hp'
    cases hp
    cases hp'
    exact h
  · exact fun h => ⟨a.2, b.2, ha, hb, h⟩

/-! ### First and last -/

/-- In a list in order, the first member with a property is in order with every other. -/
theorem exists_first {R : Nat × Request → Nat × Request → Prop} {l : List (Nat × Request)} (h : l.Pairwise R) {P : Nat × Request → Prop}
    (hex : ∃ a ∈ l, P a) : ∃ a ∈ l, P a ∧ ∀ b ∈ l, P b → b ≠ a → R a b := by
  induction l with
  | nil => simp at hex
  | cons x t ih =>
    obtain ⟨hx, ht⟩ := List.pairwise_cons.1 h
    by_cases hp : P x
    · refine ⟨x, List.mem_cons_self, hp, fun b hb _ hne => ?_⟩
      exact hx b ((List.mem_cons.1 hb).resolve_left hne)
    · obtain ⟨a, ha, hpa⟩ := hex
      have hat : a ∈ t := (List.mem_cons.1 ha).resolve_left fun e => hp (e ▸ hpa)
      obtain ⟨c, hc, hpc, hall⟩ := ih ht ⟨a, hat, hpa⟩
      refine ⟨c, List.mem_cons_of_mem _ hc, hpc, fun b hb hpb hne => ?_⟩
      exact hall b ((List.mem_cons.1 hb).resolve_left fun e => hp (e ▸ hpb)) hpb hne

/-- R155: any set of pending requests has a first member in dispatch order, and a last. -/
theorem exists_standsAhead {q : List Request} {P : Nat → Prop} (h : ∃ k < q.length, P k) :
    (∃ k < q.length, P k ∧ ∀ j < q.length, P j → j ≠ k → standsAhead q k j) ∧
    (∃ k < q.length, P k ∧ ∀ j < q.length, P j → j ≠ k → standsAhead q j k) := by
  have hget {k : Nat} (hk : k < q.length) : (k, q[k]) ∈ dispatchOrder q := mem_dispatchOrder.2 (List.getElem?_eq_getElem hk)
  have hlt {a : Nat × Request} (ha : a ∈ dispatchOrder q) : a.1 < q.length := (List.getElem?_eq_some_iff.1 (mem_dispatchOrder.1 ha)).1
  obtain ⟨k, hk, hP⟩ := h
  constructor
  · obtain ⟨a, ha, hPa, hall⟩ := exists_first (dispatchOrder_sorted q) (P := fun a => P a.1) ⟨_, hget hk, hP⟩
    refine ⟨a.1, hlt ha, hPa, fun j hj hPj hne => ?_⟩
    exact (standsAhead_of_mem ha (hget hj)).2 (hall _ (hget hj) hPj fun e => hne (congrArg Prod.fst e))
  · obtain ⟨a, ha, hPa, hall⟩ := exists_first (List.pairwise_reverse.2 (dispatchOrder_sorted q)) (P := fun a => P a.1) ⟨_, List.mem_reverse.2 (hget hk), hP⟩
    have ha := List.mem_reverse.1 ha
    refine ⟨a.1, hlt ha, hPa, fun j hj hPj hne => ?_⟩
    exact (standsAhead_of_mem (hget hj) ha).2 (hall _ (List.mem_reverse.2 (hget hj)) hPj fun e => hne (congrArg Prod.fst e))

/-- The first member in order that passes a test is the one found. -/
theorem find?_of_first {l : List (Nat × Request)} (h : l.Pairwise AheadOf) {f : Nat × Request → Bool} {a : Nat × Request} (ha : a ∈ l) (hf : f a = true)
    (hfirst : ∀ b ∈ l, f b = true → b ≠ a → AheadOf a b) : l.find? f = some a := by
  cases hc : l.find? f with
  | none => exact absurd hf (List.find?_eq_none.1 hc a ha)
  | some c =>
    obtain ⟨hfc, as, bs, rfl, hnot⟩ := List.find?_eq_some_iff_append.1 hc
    by_contra hne
    have hne : c ≠ a := fun e => hne (congrArg some e)
    have hac := hfirst c (by simp) hfc hne
    have habs : a ∈ bs := by
      rcases List.mem_append.1 ha with ha | ha
      · exact absurd hf (by simpa using hnot a ha)
      · exact (List.mem_cons.1 ha).resolve_left (Ne.symm hne)
    have hca := (List.pairwise_cons.1 (List.pairwise_append.1 h).2.1).1 a habs
    exact hac.asymm hca

/-- The last member in order stands behind every other. -/
theorem getLast?_of_last {l : List (Nat × Request)} (h : l.Pairwise AheadOf) {a : Nat × Request} (ha : a ∈ l)
    (hlast : ∀ b ∈ l, b ≠ a → AheadOf b a) : l.getLast? = some a := by
  have hfound := find?_of_first (l := l) (f := fun b => decide (b = a)) h ha (by simp) (fun b hb hf hne => absurd (by simpa using hf) hne)
  obtain ⟨-, as, bs, rfl, -⟩ := List.find?_eq_some_iff_append.1 hfound
  cases bs with
  | nil => simp
  | cons b bs =>
    have hab := (List.pairwise_cons.1 (List.pairwise_append.1 h).2.1).1 b List.mem_cons_self
    by_cases hne : b = a
    · exact absurd (hne ▸ hab) (AheadOf.irrefl a)
    · exact absurd (hlast b (by simp) hne) hab.asymm

/-! ### Arrivals -/

theorem modifyAt_eq_set {α : Type} (f : α → α) {n : Nat} {l : List α} {x : α} (h : l[n]? = some x) : modifyAt f n l = l.set n (f x) := by
  refine List.ext_getElem? fun k => ?_
  have hn := (List.getElem?_eq_some_iff.1 h).1
  rw [getElem?_modifyAt, List.getElem?_set]
  by_cases hk : k = n
  · rw [if_pos hk, if_pos hk.symm, if_pos hn, hk, h]
    rfl
  · rw [if_neg hk, if_neg (Ne.symm hk)]

/-- R156: a pending request of the same mode that shares a tile. -/
def Partner (q : List Request) (new : Request) (k : Nat) : Prop := ∃ p, q[k]? = some p ∧ p.mode = new.mode ∧ p.rect.meets new.rect = true

theorem partner_of_mem {q : List Request} {new : Request} {a : Nat × Request} (ha : a ∈ dispatchOrder q) :
    (a.2.mode == new.mode && a.2.rect.meets new.rect) = true ↔ Partner q new a.1 := by
  rw [Bool.and_eq_true, beq_iff_eq]
  constructor
  · exact fun h => ⟨a.2, mem_dispatchOrder.1 ha, h⟩
  · rintro ⟨p, hp, h⟩
    rw [mem_dispatchOrder.1 ha] at hp
    cases hp
    exact h

/-- R156: the partner is the first in dispatch order. -/
theorem findPartner_eq_some {q : List Request} {new : Request} {k : Nat} (hk : Partner q new k)
    (hfirst : ∀ j, Partner q new j → j ≠ k → standsAhead q k j) : findPartner q new = some k := by
  obtain ⟨p, hp, -⟩ := id hk
  have hmem : (k, p) ∈ dispatchOrder q := mem_dispatchOrder.2 hp
  have hfound := find?_of_first (dispatchOrder_sorted q) (f := fun a => a.2.mode == new.mode && a.2.rect.meets new.rect) hmem ((partner_of_mem hmem).2 hk)
    fun b hb hfb hne => (standsAhead_of_mem hmem hb).1 (hfirst b.1 ((partner_of_mem hb).1 hfb) fun e => hne (eq_of_mem_dispatchOrder hb hmem e))
  rw [findPartner, hfound]
  rfl

theorem findPartner_eq_none {q : List Request} {new : Request} (h : ∀ k, ¬ Partner q new k) : findPartner q new = none := by
  unfold findPartner
  rw [Option.map_eq_none_iff, List.find?_eq_none]
  exact fun a ha hf => h a.1 ((partner_of_mem ha).1 hf)

/-- R155: the last in dispatch order. -/
theorem dispatchOrder_getLast? {q : List Request} {k : Nat} {p : Request} (hp : q[k]? = some p) (hlast : ∀ j < q.length, j ≠ k → standsAhead q j k) :
    (dispatchOrder q).getLast? = some (k, p) := by
  have hmem : (k, p) ∈ dispatchOrder q := mem_dispatchOrder.2 hp
  refine getLast?_of_last (dispatchOrder_sorted q) hmem fun b hb hne => ?_
  have hlt := (List.getElem?_eq_some_iff.1 (mem_dispatchOrder.1 hb)).1
  exact (standsAhead_of_mem hb hmem).1 (hlast b.1 hlt fun e => hne (eq_of_mem_dispatchOrder hb hmem e))

theorem stronger_eq (m n : Mode) : m.stronger n = if m = .full ∨ n = .full then .full else if m = .grey ∨ n = .grey then .grey else .fast := by
  cases m <;> cases n <;> rfl

end Sys2Proof.Machine
end

section

open Sys2Proof Sys2Proof.Machine

/-- Settles O38: the order is one of every two requests, so sets of them have ends. -/
theorem arrivalMergesOrJoins : Obligations.ArrivalMergesOrJoins := by
  intro q new partner box source mode
  refine ⟨fun P => exists_standsAhead, fun k p hp hk hfirst => ?_, fun hnone hlen => ?_, fun hnone hlen k p hp hlast => ?_⟩
  · rw [enqueue, findPartner_eq_some hk hfirst]
    exact modifyAt_eq_set (Request.absorb new) hp
  · rw [enqueue, findPartner_eq_none hnone]
    exact if_pos hlen
  · have hmode : mode p = p.mode.stronger new.mode := (stronger_eq p.mode new.mode).symm
    rw [enqueue, findPartner_eq_none hnone, dispatchOrder_getLast? hp hlast, hmode]
    exact (if_neg (not_lt.2 hlen)).trans (modifyAt_eq_set (Request.absorbAny new) hp)

end

section
/-! PROOFS. 9.4: which request a dispatch takes, and how often one is made. -/

namespace Sys2Proof.Machine

open Sys2Proof

variable {s t : State}

/-! ### The first eligible request -/

/-- R158: a request in a list of pending ones is eligible, apart from the requests passed before the list. -/
def EligibleIn (floor : Nat) (l : LaneController) (passed : List Rect) (q : List (Nat × Request)) (p : Nat × Request) : Prop :=
  floor ≤ p.2.priority ∧ l.blocks p.2.rect = false ∧ (∀ r ∈ passed, r.meets p.2.rect = false) ∧
    ∀ x ∈ q, AheadOf x p → x.2.rect.meets p.2.rect = false

/-- Nothing in the list stands ahead of its first member. -/
theorem eligibleIn_head {floor : Nat} {l : LaneController} {passed : List Rect} {q : List (Nat × Request)} {p : Nat × Request}
    (h : ∀ x ∈ q, AheadOf p x) : EligibleIn floor l passed (p :: q) p ↔
      (floor ≤ p.2.priority && !l.blocks p.2.rect && !passed.any (fun r => r.meets p.2.rect)) = true := by
  have hahead : ∀ x ∈ p :: q, AheadOf x p → x.2.rect.meets p.2.rect = false := by
    intro x hx hxp
    rcases List.mem_cons.1 hx with rfl | hx
    · exact absurd hxp (AheadOf.irrefl _)
    · exact absurd hxp (h x hx).asymm
  simp only [EligibleIn, Bool.and_eq_true, decide_eq_true_eq, Bool.not_eq_true', List.any_eq_false, Bool.not_eq_true, and_assoc]
  exact ⟨fun ⟨h1, h2, h3, _⟩ => ⟨h1, h2, h3⟩, fun ⟨h1, h2, h3⟩ => ⟨h1, h2, h3, hahead⟩⟩

/-- Past its first member, which stands ahead of all others, the list goes on with that member among those passed. -/
theorem eligibleIn_tail {floor : Nat} {l : LaneController} {passed : List Rect} {q : List (Nat × Request)} {p x : Nat × Request}
    (h : AheadOf p x) : EligibleIn floor l passed (p :: q) x ↔ EligibleIn floor l (p.2.rect :: passed) q x := by
  simp only [EligibleIn, List.forall_mem_cons, h, forall_const]
  tauto

open Classical in
/-- R158: in dispatch order, the request taken is the first eligible one. -/
theorem firstEligible_eq_find? (floor : Nat) (l : LaneController) {q : List (Nat × Request)} (hq : q.Pairwise AheadOf) (passed : List Rect) :
    firstEligible floor l passed q = q.find? fun p => decide (EligibleIn floor l passed q p) := by
  induction q generalizing passed with
  | nil => rfl
  | cons p q ih =>
    obtain ⟨hp, hq⟩ := List.pairwise_cons.1 hq
    rw [firstEligible, List.find?_cons, ih hq]
    by_cases hc : EligibleIn floor l passed (p :: q) p
    · rw [if_pos ((eligibleIn_head hp).1 hc), decide_eq_true hc]
    · rw [if_neg (mt (eligibleIn_head hp).2 hc), decide_eq_false hc]
      exact List.find?_congr fun x hx => decide_eq_decide.2 (eligibleIn_tail (hp x hx)).symm

/-- The eligible requests are those of the law. -/
theorem eligible_iff_mem {k : Nat} {r : Request} :
    eligible s k r ↔ (k, r) ∈ dispatchOrder s.planner.queue ∧ EligibleIn s.params.floor s.lanes [] (dispatchOrder s.planner.queue) (k, r) := by
  unfold eligible EligibleIn
  rw [mem_dispatchOrder]
  refine and_congr_right fun hk => ?_
  have hmem : (k, r) ∈ dispatchOrder s.planner.queue := mem_dispatchOrder.2 hk
  refine and_congr_right fun _ => and_congr_right fun _ => ?_
  constructor
  · exact fun h => ⟨by simp, fun x hx hahead => h x.1 x.2 (mem_dispatchOrder.1 hx) ((standsAhead_of_mem hx hmem).2 hahead)⟩
  · rintro ⟨-, h⟩ j p hj hahead
    have hj : (j, p) ∈ dispatchOrder s.planner.queue := mem_dispatchOrder.2 hj
    exact h _ hj ((standsAhead_of_mem hj hmem).1 hahead)

theorem firstEligible_eq_some {k : Nat} {r : Request} (h : eligible s k r) (hfirst : ∀ j p, eligible s j p → j ≠ k → standsAhead s.planner.queue k j) :
    firstEligible s.params.floor s.lanes [] (dispatchOrder s.planner.queue) = some (k, r) := by
  classical
  obtain ⟨hmem, he⟩ := eligible_iff_mem.1 h
  rw [firstEligible_eq_find? _ _ (dispatchOrder_sorted _)]
  refine find?_of_first (dispatchOrder_sorted _) hmem (decide_eq_true he) fun b hb hf hne => ?_
  refine (standsAhead_of_mem hmem hb).1 (hfirst b.1 b.2 (eligible_iff_mem.2 ⟨hb, of_decide_eq_true hf⟩) fun e => hne ?_)
  exact eq_of_mem_dispatchOrder hb hmem e

theorem firstEligible_eq_none (h : ∀ k r, ¬ eligible s k r) : firstEligible s.params.floor s.lanes [] (dispatchOrder s.planner.queue) = none := by
  classical
  rw [firstEligible_eq_find? _ _ (dispatchOrder_sorted _), List.find?_eq_none]
  exact fun p hp hf => h p.1 p.2 (eligible_iff_mem.2 ⟨hp, of_decide_eq_true hf⟩)

/-! ### One dispatch -/

theorem laneIds_eq : ∀ i : Fin 4, laneIds = laneIds.take i ++ i :: laneIds.drop (i + 1) ∧ ∀ j ∈ laneIds.take i, j < i := by decide

/-- The lane found is the lowest-numbered that passes. -/
theorem find?_laneIds {f : Fin 4 → Bool} {i : Fin 4} (hi : f i = true) (hlow : ∀ j < i, f j = false) : laneIds.find? f = some i := by
  obtain ⟨heq, hlt⟩ := laneIds_eq i
  refine List.find?_eq_some_iff_append.2 ⟨hi, _, _, heq, fun j hj => ?_⟩
  rw [hlow j (hlt j hj)]
  rfl

theorem idleLane_eq_some {l : LaneController} {i : Fin 4} (hi : l.lane[i].state = .idle) (hlow : ∀ j < i, l.lane[j].state ≠ .idle) :
    l.idleLane = some i := find?_laneIds (beq_iff_eq.2 hi) fun j hj => beq_eq_false_iff_ne.2 (hlow j hj)

theorem idleLane_eq_none {l : LaneController} (h : ∀ i : Fin 4, l.lane[i].state ≠ .idle) : l.idleLane = none :=
  List.find?_eq_none.2 fun i _ hi => h i (beq_iff_eq.1 hi)

theorem LaneController.feed_eq (l : LaneController) : l.feed = { l with tx := if l.tx = none then l.order.head? else l.tx } := by
  unfold LaneController.feed
  cases h : l.tx with
  | none => rw [if_pos rfl]
  | some i =>
    rw [if_neg (Option.some_ne_none i)]
    show l = { l with tx := some i }
    rw [← h]

theorem noteDispatch_eq (p : Planes) (i : Fin 4) (source : Source) : p.noteDispatch i source =
    if p.showPending = true ∧ source = .flip ∧ i ∉ p.showing then { p with showing := p.showing ++ [i] } else p := by
  unfold Planes.noteDispatch
  simp only [Bool.and_eq_true, beq_iff_eq, List.contains_iff_mem]
  by_cases hf : p.showPending = true ∧ source = .flip
  · by_cases hi : i ∈ p.showing
    · rw [if_pos hf, if_pos hi, if_neg fun h => h.2.2 hi]
    · rw [if_pos hf, if_neg hi, if_pos ⟨hf.1, hf.2, hi⟩]
  · rw [if_neg hf, if_neg fun h => hf ⟨h.1, h.2.1⟩]

theorem limit_eq (p : Params) (m : Mode) : p.limit m = match m with | .full => p.limitFull | .grey => p.limitGrey | .fast => p.limitFast := by
  cases m <;> rfl

/-- R158, R160 and R173: one dispatch, from its lane, plane and request. -/
theorem dispatchOnce_eq {i : Fin 4} {plane : PlaneId} {k : Nat} {r : Request} (hi : s.lanes.idleLane = some i) (hp : s.planes.find .shown = some plane)
    (hk : firstEligible s.params.floor s.lanes [] (dispatchOrder s.planner.queue) = some (k, r)) :
    dispatchOnce s = some { s with
      planner := { s.planner with queue := removeAt k s.planner.queue }
      lanes := s.lanes.start i r plane s.params s.tick
      planes := s.planes.noteDispatch i r.source } := by
  simp only [dispatchOnce, dispatchAbove, hi, hp, hk]
  rfl

theorem dispatchOnce_eq_none (h : s.lanes.idleLane = none ∨ s.planes.find .shown = none ∨
    firstEligible s.params.floor s.lanes [] (dispatchOrder s.planner.queue) = none) : dispatchOnce s = none := by
  by_contra hne
  obtain ⟨t, ht⟩ := Option.ne_none_iff_exists'.1 hne
  obtain ⟨i, plane, k, r, hi, hp, hk, -⟩ := dispatchOnce_eq_some ht
  rcases h with h | h | h
  · rw [h] at hi; cases hi
  · rw [h] at hp; cases hp
  · rw [h] at hk; cases hk

/-! ### The attempt -/

/-- The lanes that are IDLE. -/
def idleLanes (s : State) : Finset (Fin 4) := {i | s.lanes.lane[i].state = .idle}

theorem mem_idleLanes {i : Fin 4} : i ∈ idleLanes s ↔ s.lanes.lane[i].state = .idle := by simp [idleLanes]

/-- R158: each dispatch takes an IDLE lane. -/
theorem card_idleLanes_lt (h : dispatchOnce s = some t) : (idleLanes t).card < (idleLanes s).card := by
  obtain ⟨i, plane, k, r, hi, -, -, rfl⟩ := dispatchOnce_eq_some h
  refine Finset.card_lt_card ((Finset.ssubset_iff_of_subset fun j hj => ?_).2 ⟨i, mem_idleLanes.2 (idleLane_idle hi), fun hmem => ?_⟩)
  · rw [mem_idleLanes, LaneController.start, LaneController.feed_lane, getElem_set_fin] at hj
    split at hj
    · cases hj
    · exact mem_idleLanes.2 hj
  · rw [mem_idleLanes, LaneController.start, LaneController.feed_lane, getElem_set_fin, if_pos rfl] at hmem
    cases hmem

/-- As many dispatches as there are IDLE lanes are all. -/
theorem dispatchUpTo_succ (n : Nat) : ∀ s : State, (idleLanes s).card ≤ n → dispatchUpTo (n + 1) s = dispatchUpTo n s := by
  induction n with
  | zero =>
    intro s hs
    cases h : dispatchOnce s with
    | none => simp [dispatchUpTo, h]
    | some t => exact absurd (card_idleLanes_lt h) (by omega)
  | succ n ih =>
    intro s hs
    cases h : dispatchOnce s with
    | none => simp [dispatchUpTo, h]
    | some t =>
      have hlt := card_idleLanes_lt h
      have heq := ih t (by omega)
      rw [dispatchUpTo, dispatchUpTo.eq_2 s n]
      simp only [h, heq]

/-- R159: the attempt repeats until no dispatch can be made. -/
theorem attemptDispatch_of_some (h : dispatchOnce s = some t) : attemptDispatch s = attemptDispatch t := by
  have hlt := card_idleLanes_lt h
  have h4 : (idleLanes s).card ≤ 4 := (Finset.card_le_univ _).trans (by simp)
  have hstep : attemptDispatch s = dispatchUpTo 3 t := by
    unfold attemptDispatch
    rw [dispatchUpTo]
    simp only [h]
  rw [hstep]
  exact (dispatchUpTo_succ 3 t (by omega)).symm

theorem attemptDispatch_of_none (h : dispatchOnce s = none) : attemptDispatch s = s := by
  unfold attemptDispatch
  rw [dispatchUpTo]
  simp only [h]

end Sys2Proof.Machine
end

section

open Sys2Proof Sys2Proof.Machine

/-- Settles O39: the request taken is the first eligible member of the sorted dispatch order, and each dispatch uses one of the four lanes up. -/
theorem dispatchTakesTheFirstEligible : Obligations.DispatchTakesTheFirstEligible := by
  intro s
  refine ⟨fun i plane k r hi hlow hp hk hfirst => ?_, fun hnone => ?_, ?_⟩
  · intro update
    rw [dispatchOnce_eq (idleLane_eq_some hi hlow) hp (firstEligible_eq_some hk hfirst), removeAt_eq_eraseIdx, noteDispatch_eq, LaneController.start,
      LaneController.feed_eq, limit_eq] <;> rfl
  · refine dispatchOnce_eq_none ?_
    rcases hnone with h | h | h
    · exact .inl (idleLane_eq_none h)
    · exact .inr (.inl h)
    · exact .inr (.inr (firstEligible_eq_none h))
  · cases h : dispatchOnce s with
    | none => exact attemptDispatch_of_none h
    | some t => exact attemptDispatch_of_some h

end

section
/-! PROOFS. Chapter 10 and the timers: send ends, completion frames, timeouts, expiries and the tick. -/

namespace Sys2Proof.Machine

open Sys2Proof

variable {s t : State}

/-! ### Tiles -/

/-- R152 and R153: a tile after the end of an update. -/
theorem getElem_mapTiles (q : Rect) (f : Tile → Tile) (v : Vector Tile 1200) (k : Fin 1200) :
    (mapTiles q f v)[k] = if q.has k = true then f v[k] else v[k] := by
  refine (getElem_mapVector (fun i t => if q.has i then f t else t) v k k.isLt).trans ?_
  rfl

/-- The tiles that pass a test, by their numbers. -/
theorem positionsFrom_eq_filter {α : Type} {n : Nat} (p : α → Bool) (v : Vector α n) :
    positionsFrom p 0 v.toList = (List.range n).filter fun k => v[k]?.any p := by
  refine (positionsFrom_sorted p 0 v.toList).eq_of_mem_iff (List.pairwise_lt_range.filter _) fun k => ?_
  have hget : v.toList[k]? = v[k]? := by simp
  rw [mem_positionsFrom, Nat.sub_zero, hget, List.mem_filter, List.mem_range, Option.any_eq_true]
  constructor
  · rintro ⟨-, x, hx, hp⟩
    exact ⟨(Vector.getElem?_eq_some_iff.1 hx).1, x, hx, hp⟩
  · rintro ⟨-, x, hx, hp⟩
    exact ⟨Nat.zero_le k, x, hx, hp⟩

/-! ### Send ends -/

/-- R110: a RETIRING plane that no lane reads any more is freed, and may be granted. -/
theorem retire_of_none (h : s.planes.find .retiring = none) : s.retire = s := by
  unfold State.retire
  rw [h]

theorem retire_of_some {p : PlaneId} (h : s.planes.find .retiring = some p) : s.retire =
    if s.lanes.lane.toList.any (fun x => x.sendsFrom p) = true then s
    else State.grant { s with planes := s.planes.set p { s.planes.get p with held := none } } := by
  unfold State.retire
  rw [h]
  rfl

/-- A retirement leaves the Command Queue alone. -/
theorem retire_cmd (s : State) : s.retire.cmd = s.cmd := by
  unfold State.retire
  split
  · rfl
  · split
    · rfl
    · obtain ⟨r, c, p, hg⟩ := grant_frame (s.setPlanes (s.planes.free ‹_›))
      rw [hg]
      rfl

/-- R130: what a send end tests. -/
theorem testHeldIf_of_none (h : s.cmd.executing = none) (c : Bool) : s.testHeldIf c = s := by
  cases c with
  | false => rfl
  | true =>
    show s.testHeld = s
    unfold State.testHeld
    rw [h]

theorem testHeldIf_of_some {h : HeldPaint} (he : s.cmd.executing = some h) (c : Bool) :
    s.testHeldIf c = if c = true then State.rerender { s with cmd := { s.cmd with executing := none } } h else s := by
  cases c with
  | false => rfl
  | true =>
    show s.testHeld = _
    unfold State.testHeld
    rw [he]
    rfl

theorem readsFront_eq {l : Lane} {u : Update} (h : l.update = some u) (p : Planes) : l.readsFront p = true ↔ p.find .shown = some u.plane := by
  unfold Lane.readsFront
  rw [h]
  exact beq_iff_eq

/-! ### Completion frames -/

theorem receive_of_none (h : s.lanes.rx = none) (b : Byte) : s.receive b = s.setRx (if b = 0xC1 then some [] else none) := by
  unfold State.receive
  rw [h]
  show (if b = 0xC1 then s.setRx (some []) else s) = _
  split
  · rfl
  · show s = { s with lanes := { s.lanes with rx := none } }
    rw [← h]

theorem receive_of_short {got : List Byte} (h : s.lanes.rx = some got) (hlen : got.length < 2) (b : Byte) : s.receive b = s.setRx (some (got ++ [b])) := by
  unfold State.receive
  rw [h]
  match got, hlen with
  | [], _ => rfl
  | [x], _ => rfl

theorem receive_of_two {lane seq : Byte} (h : s.lanes.rx = some [lane, seq]) (b : Byte) : s.receive b = (s.setRx none).takeFrame lane seq b := by
  unfold State.receive
  rw [h]

theorem frameNext_of_two {l : LaneController} {got : List Byte} (h : l.rx = some got) (hlen : got.length = 2) : l.frameNext = true := by
  unfold LaneController.frameNext
  rw [h]
  exact beq_iff_eq.2 hlen

/-- R176: the frame of a WAITING lane, on its sequence number. -/
theorem matchedLane_eq_some {l : LaneController} {lane seq : Byte} {i : Fin 4} (hlane : lane.toNat = i) (hw : l.lane[i].state = .waiting)
    (hseq : l.lane[i].seq = seq) : matchedLane l lane seq = some i := by
  refine find?_laneIds ?_ fun j hj => ?_
  · rw [Bool.and_eq_true, Bool.and_eq_true, beq_iff_eq, beq_iff_eq, beq_iff_eq]
    exact ⟨⟨hlane, hw⟩, hseq⟩
  · have hne : (lane.toNat == j.val) = false := beq_eq_false_iff_ne.2 (by omega)
    rw [hne, Bool.false_and, Bool.false_and]

theorem matchedLane_eq_none {l : LaneController} {lane seq : Byte}
    (h : ¬ ∃ i : Fin 4, lane.toNat = i ∧ l.lane[i].state = .waiting ∧ l.lane[i].seq = seq) : matchedLane l lane seq = none := by
  refine List.find?_eq_none.2 fun i _ hi => h ⟨i, ?_⟩
  rw [Bool.and_eq_true, Bool.and_eq_true, beq_iff_eq, beq_iff_eq, beq_iff_eq] at hi
  exact ⟨hi.1.1, hi.1.2, hi.2⟩

/-- R178: the duration is stored under the update's mode. -/
theorem setLast_eq (l : LaneController) (m : Mode) (d : Tick) : l.setLast m d = { l with
    lastFull := if m = .full then d else l.lastFull
    lastGrey := if m = .grey then d else l.lastGrey
    lastFast := if m = .fast then d else l.lastFast } := by
  cases m <;> rfl

/-- R107: what the show report becomes with an update's end. -/
theorem reportShown_eq (s : State) (i : Fin 4) : s.reportShown i = { s with
    events := if i ∈ s.planes.showing then s.events.mark .pageShown else s.events
    planes := if i ∈ s.planes.showing then { s.planes with showPending := false, showing := [] } else s.planes } := by
  unfold State.reportShown
  by_cases h : i ∈ s.planes.showing
  · rw [if_pos (List.contains_iff_mem.2 h), if_pos h, if_pos h]
    rfl
  · rw [if_neg (mt List.contains_iff_mem.1 h), if_neg h, if_neg h]

/-- R177: the update's end, field by field. -/
theorem endUpdate_eq (s : State) (i : Fin 4) (u : Update) (ok : Bool) : s.endUpdate i u ok = attemptDispatch { s with
    planner := { s.planner with
      tiles := endTiles u ok s.planner.tiles
      settle := if (ok && u.mode == .fast) = true ∧ s.planner.settle = none then s.deadlineIn s.params.settle else s.planner.settle }
    lanes := { s.lanes with
      lane := s.lanes.lane.set i { s.lanes.lane[i] with state := .idle }
      lastFull := if u.mode = .full then s.tick - u.started else s.lanes.lastFull
      lastGrey := if u.mode = .grey then s.tick - u.started else s.lanes.lastGrey
      lastFast := if u.mode = .fast then s.tick - u.started else s.lanes.lastFast }
    events := if i ∈ s.planes.showing then (if (!ok) = true then s.events.mark .updateFailed else s.events).mark .pageShown
      else if (!ok) = true then s.events.mark .updateFailed else s.events
    planes := if i ∈ s.planes.showing then { s.planes with showPending := false, showing := [] } else s.planes } := by
  unfold State.endUpdate
  dsimp only
  rw [startSettleIf_eq, setLast_eq, raiseIf_eq, reportShown_eq]
  rfl

/-! ### Timeouts and timers -/

theorem expired_iff (l : Lane) : l.expired = true ↔ l.state = .waiting ∧ ∃ u, l.update = some u ∧ u.limit ≤ l.elapsed / 16 := by
  unfold Lane.expired
  cases l.update <;> simp

/-- 1.5: the four slots of the Command Queue are free. -/
theorem slotsTaken_eq_zero : slotsTaken s = 0 ↔ s.cmd.queued = [] ∧ s.cmd.executing = none ∧ s.link.framing.reservesSlot = false := by
  have hif (c : Bool) : (if c = true then 1 else 0) = 0 ↔ c = false := by cases c <;> simp
  unfold slotsTaken
  rw [Nat.add_eq_zero_iff, Nat.add_eq_zero_iff, List.length_eq_zero_iff, hif, hif, Option.isSome_eq_false_iff, Option.isNone_iff_eq_none, and_assoc]

/-- R167 and R169: what the expiry of a timer asks for. -/
def State.ask (u : State) (source : Source) (mode : Mode) (tiles : List Nat) : State :=
  match boundingBox tiles with
  | none => u
  | some q => if u.planes.find .shown = none then u else u.arrive source mode q

theorem requestTiles_eq (u : State) (source : Source) (mode : Mode) (p : Tile → Bool) :
    u.requestTiles source mode p = u.ask source mode ((List.range 1200).filter fun k => u.planner.tiles[k]?.any p) := by
  unfold State.requestTiles State.ask
  rw [positionsFrom_eq_filter]
  cases boundingBox ((List.range 1200).filter fun k => u.planner.tiles[k]?.any p) with
  | none => cases u.planes.find .shown <;> rfl
  | some q => cases u.planes.find .shown <;> rfl

theorem reach_eq (now : Tick) (d : Deadline) : d.reach now = { d with passed := d.passed || d.due == now } := by
  unfold Deadline.reach
  by_cases h : d.due = now
  · rw [if_pos h, beq_iff_eq.2 h, Bool.or_true]
  · rw [if_neg h, beq_eq_false_iff_ne.2 h, Bool.or_false]

theorem count_eq (l : Lane) : l.count = { l with elapsed := if l.state = .waiting then l.elapsed + 1 else l.elapsed } := by
  unfold Lane.count
  split <;> rfl

end Sys2Proof.Machine
end

section

open Sys2Proof Sys2Proof.Machine

/-- Settles O45: the retirement leaves the slot of a held re-render alone, so the test comes to the same after it as before. -/
theorem sendEndFreesAndTests : Obligations.SendEndFreesAndTests := by
  intro s i u htx hu l frame ended freed tested
  have hended : s.setLanes (s.lanes.endSend i fun p => (s.planes.get p).pixels) = ended := by
    unfold LaneController.endSend
    rw [hu]
    rfl
  have hfreed : ended.retire = freed := by
    cases h : s.planes.find .retiring with
    | none => exact (retire_of_none (s := ended) h).trans (by simp only [freed, h])
    | some p => exact (retire_of_some (s := ended) h).trans (by simp only [freed, h]; rfl)
  have hcmd : freed.cmd = s.cmd := by
    rw [← hfreed]
    exact retire_cmd ended
  have htested : freed.testHeldIf (s.lanes.lane[i].readsFront s.planes) = tested := by
    cases h : s.cmd.executing with
    | none =>
      refine (testHeldIf_of_none (by rw [hcmd, h]) _).trans ?_
      simp only [tested, h]
    | some x =>
      refine (testHeldIf_of_some (by rw [hcmd, h]) _).trans ?_
      simp only [tested, h, readsFront_eq hu]
  have hexec : exec .sendEnd s = .next ((ended.retire.testHeldIf (s.lanes.lane[i].readsFront s.planes)).setLanes
      (ended.retire.testHeldIf (s.lanes.lane[i].readsFront s.planes)).lanes.feed) := by
    rw [← hended]
    show execSendEnd s = _
    unfold execSendEnd
    rw [htx]
  rw [hexec, hfreed, htested, LaneController.feed_eq]
  rfl

/-- Settles O46, from the fields that an update's end writes. -/
theorem completionFrameEndsItsUpdate : Obligations.CompletionFrameEndsItsUpdate := by
  refine ⟨fun s b => ?_, fun s lane seq result hrx => ?_⟩
  · intro rx
    refine ⟨fun h => congrArg Host.Outcome.next (receive_of_none h b), fun got h hlen => congrArg Host.Outcome.next (receive_of_short h hlen b),
      fun got h hlen => ?_, rfl⟩
    exact (congrArg Host.Outcome.next (if_pos (frameNext_of_two h hlen))).symm
  · intro t
    have hexec : exec (.completionFrame result) s = .next (t.takeFrame lane seq result) :=
      congrArg Host.Outcome.next ((if_pos (frameNext_of_two hrx rfl)).trans (receive_of_two hrx result))
    refine ⟨fun hnone => ?_, fun i u hlane hw hseq hu => ?_⟩
    · rw [hexec, State.takeFrame, matchedLane_eq_none (l := t.lanes) hnone]
      rfl
    · intro updated failed
      refine ⟨endTiles u (result == 0) s.planner.tiles, fun k => ?_, ?_⟩
      · refine (getElem_mapTiles _ _ _ k).trans ?_
        have hone (x : Tile) : (if (result == 0) = true then x.updated u.mode else x.unknown) = updated x := by
          by_cases h : result = 0
          · exact (if_pos (beq_iff_eq.2 h)).trans (((by cases u.mode <;> rfl : _ = _)).trans (if_pos h).symm)
          · exact (if_neg (mt beq_iff_eq.1 h)).trans (if_neg h).symm
        rw [hone]
      · have htake : t.takeFrame lane seq result = t.endUpdate i u (result == 0) := by
          rw [State.takeFrame, matchedLane_eq_some (l := t.lanes) hlane hw hseq]
          show (match s.lanes.lane[i].update with
            | none => t.raise .lateDone
            | some u => t.endUpdate i u (result == 0)) = _
          rw [hu]
        have hfailed : (if (!(result == 0)) = true then s.events.mark .updateFailed else s.events) = failed := by
          by_cases h : result = 0
          · rw [h]
            exact (if_pos h).symm
          · exact (if_pos (by rw [beq_eq_false_iff_ne.2 h]; rfl)).trans (if_neg h).symm
        have hsettle : ((result == 0 && u.mode == .fast) = true ∧ s.planner.settle = none) ↔ (result = 0 ∧ u.mode = .fast ∧ s.planner.settle = none) := by
          rw [Bool.and_eq_true, beq_iff_eq, beq_iff_eq, and_assoc]
        rw [hexec, htake, endUpdate_eq]
        simp only [t, hfailed, hsettle]
        rfl

/-- Settles O47: a lane has expired exactly when it is WAITING at its limit. -/
theorem timeoutFaultsTheLane : Obligations.TimeoutFaultsTheLane := by
  intro s i
  have hexec : exec (.laneTimeout i) s = .next (if s.lanes.lane[i].expired = true then s.timeout i else s) := dif_pos i.isLt
  refine ⟨fun u hu hw hlimit => ⟨mapTiles u.rect Tile.unknown s.planner.tiles, getElem_mapTiles u.rect Tile.unknown s.planner.tiles, ?_⟩, fun hnot => ?_⟩
  · rw [hexec, if_pos ((expired_iff _).2 ⟨hw, u, hu, hlimit⟩), State.timeout, hu]
    rfl
  · have hexpired : ¬ s.lanes.lane[i].expired = true := by
      rw [expired_iff]
      rintro ⟨hw, u, hu, hlimit⟩
      rcases hnot with h | h
      · exact h hw
      · exact absurd hlimit (not_le.2 (h u hu))
    rw [hexec, if_neg hexpired]

/-- Settles O48, expiry by expiry. -/
theorem timersRunWithTheTick : Obligations.TimersRunWithTheTick := by
  refine ⟨fun s => ?_, fun s => ?_⟩
  · intro where_ ask limit settled next swept
    have hcoalesce : exec .coalescingTimerExpiry s = .next (if (due s.notes.coalesce && slotsTaken s == 0) = true then s.releaseHold else s) := rfl
    rw [hcoalesce]
    simp only [Bool.and_eq_true, beq_iff_eq, slotsTaken_eq_zero]
    refine ⟨fun hdue hq he hl => ?_, fun hnot => ?_, ?_, ?_⟩
    · rw [if_pos ⟨hdue, hq, he, hl⟩]
    · refine congrArg Host.Outcome.next (if_neg ?_)
      rintro ⟨hdue, hq, he, hl⟩
      simp [hdue, hq, he, hl] at hnot
    · have hask : settled.requestTiles .settle .grey (·.coarse) = ask settled .settle s.params.prioritySettle .grey (·.coarse) := by
        refine (requestTiles_eq settled .settle .grey (·.coarse)).trans ?_
        unfold State.ask
        simp only [ask]
        generalize boundingBox (where_ (·.coarse)) = box
        cases box <;> rfl
      exact congrArg (fun x => Host.Outcome.next (if due s.planner.settle = true then x else s)) hask
    · have hswept : (if s.params.continuous = true then s.restartSweep else s.setPlanner { s.planner with sweep := none }) = swept := by
        by_cases hc : s.params.continuous = true
        · by_cases hz : s.params.sweep = 0
          · have hnext : next = none := if_neg fun h => h.2 hz
            simp only [if_pos hc, swept, hnext, State.restartSweep, if_pos hz]
            rfl
          · have hnext : next = s.deadlineIn (s.params.sweep * 1000) := if_pos ⟨hc, hz⟩
            simp only [if_pos hc, swept, hnext, State.restartSweep, if_neg hz]
            rfl
        · have hnext : next = none := if_neg fun h => hc h.1
          simp only [if_neg hc, swept, hnext]
          rfl
      have hexec : exec .sweepTimerExpiry s = .next (if due s.planner.sweep = true then
          (if s.params.continuous = true then s.restartSweep else s.setPlanner { s.planner with sweep := none }).requestTiles .cleanup .full limit else s) := rfl
      have hask : swept.requestTiles .cleanup .full limit = ask swept .cleanup s.params.priorityCleanup .full limit := by
        refine (requestTiles_eq swept .cleanup .full limit).trans ?_
        unfold State.ask
        simp only [ask]
        generalize boundingBox (where_ limit) = box
        cases box <;> rfl
      rw [hexec, hswept, hask]
  · intro now reach
    refine ⟨mapVector (fun _ x => x.count) s.lanes.lane, fun i => ?_, ?_⟩
    · exact (getElem_mapVector _ _ _ _).trans (count_eq _)
    · have hreach (d : Option Deadline) : d.map (Deadline.reach now) = reach d := by
        cases d with
        | none => rfl
        | some d => exact congrArg some (reach_eq now d)
      rw [← hreach, ← hreach, ← hreach]
      rfl

end

section
/-! PROOFS. 11.1 to 11.4: acknowledgements, raised events, level events and ATTN_N; and the end of the stream (1.6). -/

namespace Sys2Proof.Machine

open Sys2Proof

variable {s : State}

/-! ### Edge events -/

theorem twoPow_bit (e : EdgeEvent) : BitVec.twoPow 16 e.bit = BitVec.ofNat 16 (2 ^ e.bit) := by cases e <;> rfl

theorem mark_eq (u : EventUnit) (e : EdgeEvent) : u.mark e = { u with flags := u.flags ||| BitVec.ofNat 16 (2 ^ e.bit) } :=
  congrArg (fun b => { u with flags := u.flags ||| b }) (twoPow_bit e)

/-- R186: what a slot holds after its event is raised. -/
theorem putDetail_eq {ρ : Type} (slot : Option (Detail ρ)) (why : ρ) (kind tag : Byte) (value ordinal : Nat) :
    putDetail slot why kind tag value ordinal = some (match slot with
      | none => { reason := why, kind := kind, tag := tag, value := value, ordinal := ordinal, more := false }
      | some d => { d with more := true }) := by
  cases slot <;> rfl

/-- 11.1: the edge events in the order of their bits. -/
def edgeEvents : List EdgeEvent :=
  [.pageReady, .pageFull, .pageShown, .sequenceError, .recordError, .faceFault, .glyphMissing, .tableFault, .styleStackError, .noteFault, .framingError,
    .intakeOverrun, .commandRefused, .updateFailed, .lateDone, .paramClamped]

theorem map_bit_edgeEvents : edgeEvents.map (·.bit) = List.range 16 := rfl

theorem exists_bit_eq {k : Nat} (h : k < 16) : ∃ e : EdgeEvent, e.bit = k := by
  have hmem := List.mem_range.2 h
  rw [← map_bit_edgeEvents, List.mem_map] at hmem
  obtain ⟨e, -, he⟩ := hmem
  exact ⟨e, he⟩

/-! ### Acknowledgements -/

theorem getLsbD_ackSet (r : Record) {k : Nat} (h : k < 16) : (ackSet r).getLsbD k = (r.u16 4).testBit k := by
  rw [ackSet, BitVec.getLsbD_ofNat, decide_eq_true h, Bool.true_and]

theorem acknowledge_ackSet (u : EventUnit) (r : Record) : u.acknowledge (ackSet r) =
    { flags := u.flags &&& ~~~ (BitVec.ofNat 16 (r.u16 4))
      face := if (r.u16 4).testBit 5 = true then none else u.face
      glyph := if (r.u16 4).testBit 6 = true then none else u.glyph
      table := if (r.u16 4).testBit 7 = true then none else u.table
      note := if (r.u16 4).testBit 9 = true then none else u.note
      command := if (r.u16 4).testBit 12 = true then none else u.command } := by
  unfold EventUnit.acknowledge
  rw [getLsbD_ackSet r EdgeEvent.faceFault.bit_lt, getLsbD_ackSet r EdgeEvent.glyphMissing.bit_lt, getLsbD_ackSet r EdgeEvent.tableFault.bit_lt,
    getLsbD_ackSet r EdgeEvent.noteFault.bit_lt, getLsbD_ackSet r EdgeEvent.commandRefused.bit_lt]
  rfl

/-! ### Level events -/

theorem levelFlags_bits : ∀ a b c d : Bool, (BitVec.ofNat 4 (bitOf a 1 + bitOf b 2 + bitOf c 4 + bitOf d 8)).getLsbD 0 = a ∧
    (BitVec.ofNat 4 (bitOf a 1 + bitOf b 2 + bitOf c 4 + bitOf d 8)).getLsbD 1 = b ∧
    (BitVec.ofNat 4 (bitOf a 1 + bitOf b 2 + bitOf c 4 + bitOf d 8)).getLsbD 2 = c ∧
    (BitVec.ofNat 4 (bitOf a 1 + bitOf b 2 + bitOf c 4 + bitOf d 8)).getLsbD 3 = d := by decide

theorem levelFlags_getLsbD (s : State) : (levelFlags s).getLsbD 0 = intakeEmpty s ∧ (levelFlags s).getLsbD 1 = s.comp.state.waiting ∧
    (levelFlags s).getLsbD 2 = laneFault s.lanes ∧ (levelFlags s).getLsbD 3 = panelStall s.lanes := levelFlags_bits _ _ _ _

theorem mem_toList_iff {α : Type} {n : Nat} {v : Vector α n} {x : α} : x ∈ v.toList ↔ ∃ i : Fin n, v[i] = x := by
  rw [Vector.mem_toList_iff, Vector.mem_iff_getElem]
  exact ⟨fun ⟨i, hi, h⟩ => ⟨⟨i, hi⟩, h⟩, fun ⟨i, h⟩ => ⟨i, i.isLt, h⟩⟩

theorem intakeEmpty_iff : intakeEmpty s = true ↔ s.ring = [] ∧ s.link.framing.reserved = 0 := by
  rw [intakeEmpty, Bool.and_eq_true, List.isEmpty_iff, beq_iff_eq]

theorem waiting_iff (c : ComposerState) : c.waiting = true ↔ ∃ p, c = .waitPlane p := by
  cases c <;> simp [ComposerState.waiting]

theorem laneFault_iff (l : LaneController) : laneFault l = true ↔ ∃ i : Fin 4, l.lane[i].state = .faulted := by
  rw [laneFault, List.any_eq_true]
  simp only [mem_toList_iff, beq_iff_eq]
  exact ⟨fun ⟨x, ⟨i, hi⟩, hx⟩ => ⟨i, hi ▸ hx⟩, fun ⟨i, hi⟩ => ⟨_, ⟨i, rfl⟩, hi⟩⟩

theorem panelStall_iff (l : LaneController) : panelStall l = true ↔ ∀ i : Fin 4, l.lane[i].state = .faulted := by
  rw [panelStall, List.all_eq_true]
  simp only [mem_toList_iff, beq_iff_eq]
  exact ⟨fun h i => h _ ⟨i, rfl⟩, fun h x ⟨i, hi⟩ => hi ▸ h i⟩

/-! ### ATTN_N -/

/-- Two sets of bits meet in some bit. -/
theorem and_bne_zero_iff {n : Nat} (a b : BitVec n) : (a &&& b != 0) = true ↔ ∃ k < n, a.getLsbD k = true ∧ b.getLsbD k = true := by
  have hzero (k : Nat) : (0 : BitVec n).getLsbD k = false := BitVec.getLsbD_zero
  rw [bne_iff_ne]
  constructor
  · intro h
    by_contra hno
    refine h (BitVec.eq_of_getLsbD_eq fun k hk => ?_)
    rw [BitVec.getLsbD_and, hzero]
    by_contra hne
    rw [Bool.not_eq_false, Bool.and_eq_true] at hne
    exact hno ⟨k, hk, hne⟩
  · rintro ⟨k, -, ha, hb⟩ h
    have hbit := congrArg (·.getLsbD k) h
    rw [BitVec.getLsbD_and, ha, hb, hzero] at hbit
    cases hbit

/-- R187: ATTN_N is low under an enabled edge flag or level event. -/
theorem attnLow_iff (s : State) : attnLow s = true ↔ (∃ e : EdgeEvent, s.events.has e = true ∧ s.params.edgeMask.getLsbD e.bit = true) ∨
    ∃ k < 4, (levelFlags s).getLsbD k = true ∧ s.params.levelMask.getLsbD k = true := by
  rw [attnLow, Bool.or_eq_true, and_bne_zero_iff, and_bne_zero_iff]
  refine or_congr_left ⟨?_, ?_⟩
  · rintro ⟨k, hk, h⟩
    obtain ⟨e, rfl⟩ := exists_bit_eq hk
    exact ⟨e, h⟩
  · exact fun ⟨e, h⟩ => ⟨e.bit, e.bit_lt, h⟩

end Sys2Proof.Machine
end

section

open Sys2Proof Sys2Proof.Machine

/-- Settles O41, from the bits of the acknowledge set, the flags and the masks. -/
theorem eventAckClearsWhatItNames : Obligations.EventAckClearsWhatItNames := by
  refine ⟨fun s r rest hc hk => ?_, fun s r value ordinal => ?_, fun s => ?_⟩
  · intro t names u
    refine congrArg Host.Outcome.next ((executeReleasing_of_commands hc hk _).trans ?_)
    rw [acknowledge_ackSet, getLsbD_ackSet r EdgeEvent.styleStackError.bit_lt]
    show (if names 8 = true then _ else _) = _
    cases names 8 <;> rfl
  · intro put raised
    have hput (ρ : Type) (slot : Option (Detail ρ)) (why : ρ) (kind tag : Byte) : putDetail slot why kind tag value ordinal = put ρ slot why kind tag :=
      putDetail_eq ..
    refine ⟨fun why => ?_, fun why => ?_, fun why => ?_, fun why => ?_, fun why kind tag => ?_, fun e => ?_, map_bit_edgeEvents⟩
    · rw [State.faceFault, mark_eq, hput]
      rfl
    · rw [State.glyphMissing, mark_eq, hput]
      rfl
    · rw [State.tableFault, mark_eq, hput]
      rfl
    · rw [State.noteFault, mark_eq, hput]
      rfl
    · rw [State.commandRefused, mark_eq, hput]
      rfl
    · rw [withEvent, mark_eq]
  · obtain ⟨h0, h1, h2, h3⟩ := levelFlags_getLsbD s
    rw [h0, h1, h2, h3]
    exact ⟨intakeEmpty_iff, waiting_iff _, laneFault_iff _, panelStall_iff _, attnLow_iff s⟩

/-- Settles O43: the rule is applied to the state with the hold set released. -/
theorem streamResetEndsTheStream : Obligations.StreamResetEndsTheStream := by
  intro s r rest hc hk t
  refine congrArg Host.Outcome.next ((executeReleasing_of_commands hc hk _).trans ?_)
  unfold Planes.dropComposing
  cases (takenFrom s rest).planes.find .composing <;> rfl

end

section
/-! PROOFS. 10.5: the reset of the panel. -/

namespace Sys2Proof.Machine

open Sys2Proof

variable {s : State}

/-! ### Tiles and lanes -/

/-- R153: the tiles of some of the rectangles become unknown. -/
theorem getElem_foldl_unknown (l : List Rect) (v : Vector Tile 1200) (k : Fin 1200) :
    (l.foldl (fun v q => mapTiles q Tile.unknown v) v)[k] = if (l.any fun q => q.has k) = true then { v[k] with residue := 255 } else v[k] := by
  induction l generalizing v with
  | nil => rfl
  | cons q t ih =>
    rw [List.foldl_cons, ih, getElem_mapTiles, List.any_cons]
    cases q.has k with
    | false => rfl
    | true =>
      rw [Bool.true_or, if_pos rfl, if_pos rfl]
      exact ite_self _

/-- R153: a tile lies in the rectangle of a busy lane. -/
theorem any_rect_has (l : List Lane) (k : Nat) : ((l.filterMap Lane.rect?).any fun q => q.has k) =
    l.any fun x => x.busy && (x.update.any fun u => u.rect.has k) := by
  rw [List.any_filterMap]
  refine congrArg l.any (funext fun x => ?_)
  unfold Lane.rect?
  cases x.busy with
  | false => rfl
  | true => cases x.update <;> rfl

theorem getElem_abandonTiles (l : LaneController) (v : Vector Tile 1200) (k : Fin 1200) : (abandonTiles l v)[k] =
    if (l.lane.toList.any fun x => x.busy && (x.update.any fun u => u.rect.has k)) = true then { v[k] with residue := 255 } else v[k] := by
  rw [abandonTiles, getElem_foldl_unknown, any_rect_has]

/-- R182: no lane is SENDING after the reset. -/
theorem sendsFrom_of_idle {l : LaneController} (h : ∀ i : Fin 4, l.lane[i].state = .idle) (p : PlaneId) : l.sendsFrom p = false := by
  refine List.any_eq_false.2 fun x hx => ?_
  obtain ⟨i, rfl⟩ := mem_toList_iff.1 hx
  rw [Lane.sendsFrom, h i]
  exact Bool.false_ne_true

/-! ### Grants and the Planner -/

/-- A grant and a change of the Planner do not meet. -/
theorem grant_setPlanner (s : State) (p : Planner) : (s.setPlanner p).grant = s.grant.setPlanner p := by
  unfold State.grant
  by_cases hhold : (s.cmd.streamHold != 0) = true
  · exact (if_pos hhold).trans (congrArg (State.setPlanner · p) (if_pos hhold)).symm
  · refine (if_neg hhold).trans (Eq.trans ?_ (congrArg (State.setPlanner · p) (if_neg hhold)).symm)
    dsimp only [State.setPlanner]
    cases s.comp.state with
    | idle => rfl
    | composing => rfl
    | waitPlane w => cases w <;> cases s.planes.available <;> rfl

/-- What a retirement leaves alone: it may grant a plane, no more. -/
theorem retire_frame (s : State) : ∃ r c p, s.retire = ((s.setRing r).setComp c).setPlanes p := by
  unfold State.retire
  split
  · exact ⟨s.ring, s.comp, s.planes, rfl⟩
  · next i _ =>
    split
    · exact ⟨s.ring, s.comp, s.planes, rfl⟩
    · obtain ⟨r, c, p, hg⟩ := grant_frame (s.setPlanes (s.planes.free i))
      exact ⟨r, c, p, hg⟩

theorem retire_showing (s : State) : s.retire.planes.showing = s.planes.showing := by
  unfold State.retire
  split
  · rfl
  · split
    · rfl
    · exact (grant_showing _).trans (Planes.set_showing ..)

/-- R113: the planes of the state are those of a panel without sends. -/
theorem retire_of_idle (h : ∀ i : Fin 4, s.lanes.lane[i].state = .idle) : s.retire = match s.planes.find .retiring with
    | none => s
    | some i => State.grant { s with planes := s.planes.set i { s.planes.get i with held := none } } := by
  cases hf : s.planes.find .retiring with
  | none => exact retire_of_none hf
  | some i =>
    have hs : ¬ (s.lanes.lane.toList.any (fun x => x.sendsFrom i) = true) := fun hc =>
      Bool.false_ne_true ((sendsFrom_of_idle h i).symm.trans hc)
    exact (retire_of_some hf).trans (if_neg hs)

theorem retire_setPlanner (h : ∀ i : Fin 4, s.lanes.lane[i].state = .idle) (p p' : Planner) :
    (s.setPlanner p).retire.setPlanner p' = (s.setPlanner p').retire := by
  rw [retire_of_idle (s := s.setPlanner p) h, retire_of_idle (s := s.setPlanner p') h, State.setPlanner_planes, State.setPlanner_planes]
  cases s.planes.find .retiring with
  | none => rfl
  | some i => exact (grant_setPlanner { s with planes := s.planes.set i { s.planes.get i with held := none }, planner := p } p').symm

/-! ### The reset -/

/-- R170 and R182: the state once every update and every request is abandoned, before a RETIRING plane is freed. -/
def State.abandon (t : State) : State := { t with
  lanes := t.lanes.abort
  planes := { t.planes with showing := [] }
  planner := { t.planner with tiles := abandonTiles t.lanes t.planner.tiles, queue := [], flipCounter := 0, fullNext := true }
  notes := t.notes.emptyHold }

/-- R170, step 3: every request is removed, and the flip counter starts afresh. -/
def State.clearRequests (s : State) : State := s.setPlanner { s.planner with queue := [], flipCounter := 0, fullNext := true }

/-- R170, step 4: with a plane SHOWN, the panel is refreshed. -/
def State.refreshShown (s : State) : State :=
  match s.planes.find .shown with
  | none => s
  | some _ => s.refreshAll

theorem abandon_idle (t : State) (i : Fin 4) : t.abandon.lanes.lane[i].state = .idle := by
  have hlane : t.abandon.lanes.lane[i] = { t.lanes.lane[i] with state := .idle } := getElem_mapVector ..
  rw [hlane]

/-- R133 and R170: the request of the hold set is gone with all others. -/
theorem exec_panelReset {r : Record} {rest : List Record} (hc : Commands s r rest) (hk : r.kind = 0x48) {t : State}
    (ht : s.setCmd { s.cmd with queued := rest } = t) :
    exec .panelReset s = .next t.abandon.retire.refreshShown := by
  refine congrArg Host.Outcome.next ((execute_of_commands hc hk _).trans ?_)
  rw [ht]
  obtain ⟨q, hq⟩ := queueHold_frame t
  have hqueued : ((t.queueHold.setPlanner { t.queueHold.planner with tiles := abandonTiles t.queueHold.lanes t.queueHold.planner.tiles }).setLanes
      t.queueHold.lanes.abort).setPlanes { t.queueHold.planes with showing := [] } = t.abandon.setPlanner { t.abandon.planner with
        queue := q, flipCounter := t.planner.flipCounter, fullNext := t.planner.fullNext } := by
    rw [hq]
    rfl
  refine (congrArg (fun u => u.retire.clearRequests.refreshShown) hqueued).trans ?_
  generalize hp : ({ t.abandon.planner with queue := q, flipCounter := t.planner.flipCounter, fullNext := t.planner.fullNext } : Planner) = p
  obtain ⟨ring, comp, planes, hframe⟩ := retire_frame (t.abandon.setPlanner p)
  have hplanner : (t.abandon.setPlanner p).retire.planner = p := (congrArg State.planner hframe).trans rfl
  have hretired : (t.abandon.setPlanner p).retire.clearRequests = t.abandon.retire := by
    rw [State.clearRequests, hplanner, ← hp]
    exact retire_setPlanner (abandon_idle t) _ _
  rw [hretired]

/-- R170, step 4: what the dispatch of the refresh leaves, on a panel without updates or requests. -/
theorem refreshAll_of_abandoned {p : PlaneId} (hl : ∀ i : Fin 4, s.lanes.lane[i].state = .idle) (ho : s.lanes.order = []) (ht : s.lanes.tx = none)
    (hq : s.planner.queue = []) (hw : s.planes.showing = []) (hp : s.planes.find .shown = some p) : s.refreshAll = { s with
      lanes := { s.lanes with
        lane := s.lanes.lane.set 0 { state := .sending, seq := s.lanes.lane[0].seq + 1, elapsed := 0, update := some {
          source := .flip, mode := .full, rect := wholePanel, plane := p, threshold := s.params.threshold, limit := s.params.limitFull
          started := s.tick } }
        order := [0], tx := some 0 }
      planes := { s.planes with showing := if s.planes.showPending = true then [0] else [] } } := by
  have hplanes : s.planes.noteDispatch 0 .flip = { s.planes with showing := if s.planes.showPending = true then [0] else [] } := by
    rw [noteDispatch_eq, hw]
    by_cases hsp : s.planes.showPending = true
    · rw [if_pos ⟨hsp, rfl, List.not_mem_nil⟩, if_pos hsp, List.nil_append]
    · rw [if_neg fun h => hsp h.1, if_neg hsp, ← hw]
  rw [refreshAll_of_idle hl hq hp, hplanes, LaneController.start, LaneController.feed_eq]
  simp only [ho, ht]
  rfl

end Sys2Proof.Machine
end

section

open Sys2Proof Sys2Proof.Machine

/-- Settles O44: the lanes are all IDLE when the plane is retired and the refresh of the panel is dispatched, and the queue is empty. -/
theorem panelResetAbandonsEveryUpdate : Obligations.PanelResetAbandonsEveryUpdate := by
  intro s r rest hc hk t abandoned cut
  refine ⟨abandonTiles t.lanes t.planner.tiles, t.lanes.abort.lane, getElem_abandonTiles t.lanes t.planner.tiles, fun i => getElem_mapVector .., ?_⟩
  intro u v whole
  have hcut : (match t.lanes.tx with
      | some i => [TxItem.cut i t.lanes.lane[i].seq]
      | none => []) = cut := by
    dsimp only [cut]
    cases t.lanes.tx <;> rfl
  have habandon : t.abandon = u := congrArg (fun c => { u with lanes := { u.lanes with sent := t.lanes.sent ++ c ++ [TxItem.abort] } }) hcut
  have hv : u.retire = v := retire_of_idle (habandon ▸ abandon_idle t)
  obtain ⟨ring, comp, planes, hframe⟩ := retire_frame u
  have hlanes : v.lanes = u.lanes := (congrArg State.lanes (hv.symm.trans hframe)).trans rfl
  have hplanner : v.planner = u.planner := (congrArg State.planner (hv.symm.trans hframe)).trans rfl
  rw [exec_panelReset (t := t) hc hk rfl, habandon, hv, State.refreshShown]
  cases hp : v.planes.find .shown with
  | none => rfl
  | some p =>
    refine congrArg Host.Outcome.next (refreshAll_of_abandoned (s := v) ?_ (by rw [hlanes]) (by rw [hlanes]) (by rw [hplanner]) ?_ hp)
    · rw [hlanes, ← habandon]
      exact abandon_idle t
    · rw [← hv, retire_showing]

end

section
/-! PROOFS. 11.5: the replies to queries, byte by byte. -/

namespace Sys2Proof.Machine

open Sys2Proof

variable {s : State} {r : Record}

/-! ### Bytes of numbers -/

theorem ofNat_u8 (r : Record) (i : Nat) : BitVec.ofNat 8 (r.u8 i) = r.byte i :=
  BitVec.eq_of_toNat_eq ((BitVec.toNat_ofNat ..).trans (Nat.mod_eq_of_lt (r.byte i).isLt))

theorem replyNone_eq (r : Record) : replyNone r = [0xFF, r.tag, r.byte 4, r.byte 5] := by
  rw [replyNone, le8, le8, ofNat_u8, ofNat_u8]
  exact rfl

/-- Two numbers have the same low byte. -/
theorem ofNat_eq_ofNat_iff (k n : Nat) : BitVec.ofNat 8 k = BitVec.ofNat 8 n ↔ k % 256 = n % 256 := by
  rw [← BitVec.toNat_inj, BitVec.toNat_ofNat, BitVec.toNat_ofNat]

theorem ofNat_eq_ofInt_iff (k : Nat) (z : Int) : BitVec.ofNat 8 k = BitVec.ofInt 8 z ↔ (k : Int) % 256 = z % 256 := by
  rw [← BitVec.toNat_inj, BitVec.toNat_ofNat, BitVec.toNat_ofInt]
  omega

theorem le32_eq (n : Nat) : le32 n = [BitVec.ofNat 8 n, BitVec.ofNat 8 (n / 256), BitVec.ofNat 8 (n / 65536), BitVec.ofNat 8 (n / 16777216)] := by
  rw [le32, le16, le16, Nat.div_div_eq_div_mul]
  exact rfl

/-- The low 16 bits of a number are its first two bytes. -/
theorem le16_mod (n : Nat) : le16 (n % 65536) = [BitVec.ofNat 8 n, BitVec.ofNat 8 (n / 256)] := by
  rw [le16, (ofNat_eq_ofNat_iff (n % 65536) n).2 (by omega), (ofNat_eq_ofNat_iff (n % 65536 / 256) (n / 256)).2 (by omega)]

theorem leInt16_eq (z : Int) : leInt16 z = [BitVec.ofInt 8 z, BitVec.ofInt 8 (z / 256)] := by
  rw [leInt16, le16, (ofNat_eq_ofInt_iff _ z).2 (by omega), (ofNat_eq_ofInt_iff _ (z / 256)).2 (by omega)]

theorem leInt32_eq (z : Int) :
    leInt32 z = [BitVec.ofInt 8 z, BitVec.ofInt 8 (z / 256), BitVec.ofInt 8 (z / 65536), BitVec.ofInt 8 (z / 16777216)] := by
  rw [leInt32, le32_eq, (ofNat_eq_ofInt_iff _ z).2 (by omega), (ofNat_eq_ofInt_iff _ (z / 256)).2 (by omega),
    (ofNat_eq_ofInt_iff _ (z / 65536)).2 (by omega), (ofNat_eq_ofInt_iff _ (z / 16777216)).2 (by omega)]

/-! ### Fields of the replies -/

/-- R190: the style stack, three bytes an entry. -/
theorem stackBytes_eq (stack : List (Nat × Int)) : stackBytes stack =
    (stack.reverse.flatMap fun e => [BitVec.ofNat 8 e.1, BitVec.ofInt 8 e.2, BitVec.ofInt 8 (e.2 / 256)]) ++
      List.replicate (24 - 3 * stack.length) 0 := by
  have hentry : (fun e : Nat × Int => le8 e.1 ++ leInt16 e.2) =
      fun e => [BitVec.ofNat 8 e.1, BitVec.ofInt 8 e.2, BitVec.ofInt 8 (e.2 / 256)] := by
    funext e
    rw [le8, leInt16_eq]
    exact rfl
  have hlength (l : List (Nat × Int)) :
      (l.flatMap fun e => [BitVec.ofNat 8 e.1, BitVec.ofInt 8 e.2, BitVec.ofInt 8 (e.2 / 256)]).length = 3 * l.length := by
    induction l with
    | nil => rfl
    | cons e l ih =>
      rw [List.flatMap_cons, List.length_append, ih, List.length_cons, List.length_cons, List.length_cons, List.length_cons, List.length_nil]
      omega
  rw [stackBytes, hentry, hlength, List.length_reverse]

theorem flatMap_le16_length (l : List Nat) : (l.flatMap le16).length = 2 * l.length := by
  induction l with
  | nil => rfl
  | cons x l ih =>
    rw [List.flatMap_cons, List.length_append, ih, List.length_cons, le16, List.length_cons, List.length_cons, List.length_nil]
    omega

/-- R17: the handles of present faces are below 32. -/
theorem lt_of_face_isSome {t : FaceTable} {h : Nat} (hf : (t.face h).isSome = true) : h < 32 := by
  by_contra hlt
  have hnone : t.entries[h]? = none := Vector.getElem?_eq_none_iff.2 (by omega)
  rw [FaceTable.face, hnone] at hf
  split at hf <;> cases hf

theorem planeOf_of_le {n : Nat} (h : 2 ≤ n) : planeOf n = none := by
  match n, h with
  | n + 2, _ => rfl

theorem planeOf_code (i : PlaneId) : planeOf i.code = some i := by cases i <;> rfl

theorem partOf_of_mem {n : Nat} {p : Part} (h : (n, p) ∈ [(0, Part.shown), (1, Part.ready), (2, Part.composing)]) : partOf n = some p := by
  simp only [List.mem_cons, Prod.mk.injEq, List.not_mem_nil, or_false] at h
  obtain ⟨rfl, rfl⟩ | ⟨rfl, rfl⟩ | ⟨rfl, rfl⟩ := h <;> rfl

theorem partOf_of_le {n : Nat} (h : 3 ≤ n) : partOf n = none := by
  match n, h with
  | n + 3, _ => rfl

/-- R189: the plane that a LINE or NOTE query names. -/
theorem queryPlane_of_le {n : Nat} (h : 2 ≤ n) : queryPlane s n = none := by
  rw [queryPlane, planeOf_of_le h]
  rfl

theorem queryPlane_of_free {i : PlaneId} (h : (s.planes.get i).held = none) : queryPlane s i.code = none := by
  rw [queryPlane, planeOf_code, Option.bind_some, h]
  rfl

theorem queryPlane_of_retiring {i : PlaneId} {x : Held} (h : (s.planes.get i).held = some x) (hx : x.part = .retiring) : queryPlane s i.code = none := by
  rw [queryPlane, planeOf_code, Option.bind_some, h, Option.filter_some_neg (by rw [hx]; rfl)]
  rfl

theorem queryPlane_of_held {i : PlaneId} {x : Held} (h : (s.planes.get i).held = some x) (hx : x.part ≠ .retiring) :
    queryPlane s i.code = some (i, x.page) := by
  rw [queryPlane, planeOf_code, Option.bind_some, h, Option.filter_some_pos (p := fun h : Held => h.part != .retiring) (bne_iff_ne.2 hx)]
  rfl

theorem pageOf_of_none {p : Planes} {x : Part} (h : p.find x = none) : p.pageOf x = none := by
  unfold Planes.pageOf
  rw [h]

theorem pageOf_of_held {p : Planes} {x : Part} {i : PlaneId} {h : Held} (hi : p.find x = some i) (hh : (p.get i).held = some h) :
    p.pageOf x = some (i, h.page) := by
  unfold Planes.pageOf
  rw [hi]
  show (p.get i).held.map (fun h => (i, h.page)) = _
  rw [hh]
  rfl

/-- R191: a plane's state in a reply is the part of the page it holds. -/
theorem code_of_held {x : Plane} {h : Held} (hh : x.held = some h) :
    x.code = match h.part with | .composing => 1 | .ready => 2 | .shown => 3 | .retiring => 4 := by
  unfold Plane.code Plane.part
  rw [hh, Option.map_some]
  cases h.part <;> rfl

/-- R191: the first note with an id is the one found, at its place in the list. -/
theorem findNote_of_first {id : Nat} {l : List Note} {k : Nat} {n : Note} (hk : l[k]? = some n) (hid : n.id = id)
    (hfirst : ∀ j m, j < k → l[j]? = some m → m.id ≠ id) : findNote id l = some n ∧ ∀ i, notePosition id i l = i + k := by
  induction l generalizing k with
  | nil => cases hk
  | cons x l ih =>
    cases k with
    | zero =>
      obtain rfl : x = n := Option.some.inj hk
      exact ⟨List.find?_cons_of_pos (p := fun n : Note => n.id == id) (beq_iff_eq.2 hid), fun i => if_pos hid⟩
    | succ k =>
      have hx : x.id ≠ id := hfirst 0 x (Nat.succ_pos k) rfl
      obtain ⟨hfind, hpos⟩ := ih hk fun j m hj hm => hfirst (j + 1) m (Nat.succ_lt_succ hj) hm
      refine ⟨(List.find?_cons_of_neg (p := fun n : Note => n.id == id) (mt beq_iff_eq.1 hx)).trans hfind, fun i => ?_⟩
      rw [notePosition, if_neg hx, hpos]
      omega

/-! ### The replies by kind -/

theorem queryReply_lanes (h : r.u8 4 = 5) : queryReply s r = replyLanes s r := by
  simp only [queryReply, h]

theorem queryReply_tile (h : r.u8 4 = 6) : queryReply s r = match s.planner.tiles[r.u16 6]? with
    | none => replyNone r
    | some t => replyHead r ++ le16 (r.u16 6) ++ le8 t.residue ++ le8 (bitOf t.coarse 1) := by
  simp only [queryReply, h] <;> rfl

theorem queryReply_fault (h : r.u8 4 = 7) : queryReply s r = match r.u8 5 with
    | 0 => replyFault s r .faceFault FaceReason.code s.events.face
    | 1 => replyFault s r .glyphMissing GlyphReason.code s.events.glyph
    | 2 => replyFault s r .tableFault TableReason.code s.events.table
    | 3 => replyFault s r .noteFault NoteReason.code s.events.note
    | 4 => replyFault s r .commandRefused CommandReason.code s.events.command
    | _ => replyNone r := by
  simp only [queryReply, h] <;> rfl

theorem queryReply_of_le (h : 8 ≤ r.u8 4) : queryReply s r = replyNone r := by
  obtain ⟨n, hn⟩ : ∃ n, r.u8 4 = n + 8 := ⟨r.u8 4 - 8, by omega⟩
  simp only [queryReply, hn]

theorem queryReply_face (h : r.u8 4 = 0) : queryReply s r =
    if (32 ≤ r.u16 6 || (r.u16 6 != 0 && (s.faces.face (r.u16 6)).isNone)) = true then replyNone r else replyFace s r (r.u16 6) := by
  simp only [queryReply, h]

theorem queryReply_table (h : r.u8 4 = 1) : queryReply s r = match s.glyphs[r.u16 6]? with
    | none => replyNone r
    | some t => replyTable s r (r.u16 6) t := by
  simp only [queryReply, h]
  cases ht : s.glyphs[r.u16 6]? <;> simp only [State.tableAt, ht]

theorem queryReply_page (h : r.u8 4 = 2) : queryReply s r = match (partOf (r.u8 5)).bind fun part => (s.planes.pageOf part).map fun p => (part, p) with
    | none => replyNone r
    | some (part, i, page) => replyPage s r part i page := by
  simp only [queryReply, h] <;> rfl

theorem queryReply_line (h : r.u8 4 = 3) : queryReply s r =
    match (queryPlane s (r.u8 5)).bind fun p => (p.2.lines[r.u16 6]?).map fun l => (p.1, l) with
    | none => replyNone r
    | some (i, l) => replyLine r i (s.planes.get i) (r.u16 6) l := by
  simp only [queryReply, h] <;> rfl

theorem queryReply_note (h : r.u8 4 = 4) : queryReply s r =
    match (queryPlane s (r.u8 5)).bind fun p => (findNote (r.u16 6) p.2.notes).map fun n => (p.1, p.2, n) with
    | none => replyNone r
    | some (i, page, n) => replyNote r i (s.planes.get i) page n := by
  simp only [queryReply, h] <;> rfl

end Sys2Proof.Machine
end

section

open Sys2Proof Sys2Proof.Machine

/-- Settles O42, kind by kind. -/
theorem queryRepliesByKind : Obligations.QueryRepliesByKind := by
  intro s r
  refine ⟨fun rest hc hk => congrArg Host.Outcome.next (executeReleasing_of_commands hc hk _), ?_⟩
  intro b w d sb bit selector index none_ found part plane style lane fault
  have hcode (i : PlaneId) : i.code = plane i := by cases i <;> rfl
  have hheld (i : PlaneId) (x : Held) (hi : plane i = selector) (hx : (s.planes.get i).held = some x) (h : x.part ≠ .retiring) :
      queryPlane s (r.u8 5) = some (i, x.page) := by
    rw [← show i.code = r.u8 5 by rw [hcode i, hi]]
    exact queryPlane_of_held hx h
  have hlane (l : Lane) : laneBytes l = lane l := by
    unfold laneBytes
    dsimp only [lane]
    cases l.update with
    | none => exact rfl
    | some u =>
      simp only [le16_mod]
      exact rfl
  have hnone (h : queryReply s r = replyNone r) : none_ := h.trans (replyNone_eq r)
  refine ⟨fun hk => ⟨fun h => ?_, fun h => ?_⟩, fun hk => ⟨fun h => ?_, fun t ht => ?_⟩, fun hk => ⟨fun h => ?_, fun p hp => ⟨fun h => ?_, fun i x hi hx => ?_⟩⟩,
    fun hk => ⟨fun h => ?_, fun i hi => ⟨fun h => ?_, fun x hx => ⟨fun h => ?_, fun h => ⟨fun hline => ⟨fun hlen => ?_, fun l hl => ?_⟩,
      fun hnote => ⟨fun hno => ?_, fun k n hn hid hfirst => ?_⟩⟩⟩⟩⟩,
    fun hk => ?_, fun hk => ⟨fun h => ?_, fun t ht => ?_⟩, fun hk => ?_, rfl, rfl, rfl, rfl, rfl, fun hk => ?_⟩
  · refine hnone ((queryReply_face hk).trans (if_pos ?_))
    rw [Bool.or_eq_true, Bool.and_eq_true, bne_iff_ne, Option.isNone_iff_eq_none]
    exact .inr h
  · have hcond : ¬ (32 ≤ r.u16 6 || (r.u16 6 != 0 && (s.faces.face (r.u16 6)).isNone)) = true := by
      rw [Bool.or_eq_true, Bool.and_eq_true, bne_iff_ne, decide_eq_true_eq]
      rintro (hle | ⟨hne, hno⟩)
      · rcases h with h | h
        · omega
        · exact absurd (lt_of_face_isSome h) (by omega)
      · rcases h with h | h
        · exact hne h
        · rw [Option.isNone_iff_eq_none.1 hno] at h
          cases h
    show queryReply s r = _
    rw [queryReply_face hk, if_neg hcond, replyFace, stackBytes_eq]
    simp only [replyHead, le8, le16, leInt16_eq, bitOf, b, w, sb, bit, index, List.append_assoc, List.cons_append, List.nil_append] <;>
      rfl
  · refine hnone ((queryReply_table hk).trans ?_)
    have hget : s.glyphs[r.u16 6]? = none := Vector.getElem?_eq_none_iff.2 h
    simp only [hget]
  · show queryReply s r = _
    have hget : s.glyphs[r.u16 6]? = some t := ht
    rw [queryReply_table hk]
    simp only [hget, replyTable, GlyphTable.lastCode, replyHead, le8, le16, le32_eq, b, w, d, index, List.cons_append, List.nil_append]
    cases t.glyphs.getLast? <;> rfl
  · have hpart : partOf (r.u8 5) = none := partOf_of_le h
    refine hnone ((queryReply_page hk).trans ?_)
    simp only [hpart, Option.bind_none]
  · have hpart : partOf (r.u8 5) = some p := partOf_of_mem hp
    refine hnone ((queryReply_page hk).trans ?_)
    simp only [hpart, Option.bind_some, pageOf_of_none h, Option.map_none]
  · intro ids
    have hpart : partOf (r.u8 5) = some p := partOf_of_mem hp
    show queryReply s r = _
    rw [queryReply_page hk]
    simp only [hpart, Option.bind_some, pageOf_of_held hi hx, Option.map_some, replyPage, flatMap_le16_length]
    simp only [replyHead, le8, ofNat_u8, le32_eq, b, d, List.append_assoc, List.cons_append, List.nil_append]
    exact rfl
  · have hplane : queryPlane s (r.u8 5) = none := queryPlane_of_le h
    refine hnone (hk.elim (fun hk => (queryReply_line hk).trans ?_) fun hk => (queryReply_note hk).trans ?_)
    · simp only [hplane, Option.bind_none]
    · simp only [hplane, Option.bind_none]
  · have hplane : queryPlane s (r.u8 5) = none := by
      rw [← show i.code = r.u8 5 by rw [hcode i, hi]]
      exact queryPlane_of_free h
    refine hnone (hk.elim (fun hk => (queryReply_line hk).trans ?_) fun hk => (queryReply_note hk).trans ?_)
    · simp only [hplane, Option.bind_none]
    · simp only [hplane, Option.bind_none]
  · have hplane : queryPlane s (r.u8 5) = none := by
      rw [← show i.code = r.u8 5 by rw [hcode i, hi]]
      exact queryPlane_of_retiring hx h
    refine hnone (hk.elim (fun hk => (queryReply_line hk).trans ?_) fun hk => (queryReply_note hk).trans ?_)
    · simp only [hplane, Option.bind_none]
    · simp only [hplane, Option.bind_none]
  · refine hnone ((queryReply_line hline).trans ?_)
    have hget : x.page.lines[r.u16 6]? = none := List.getElem?_eq_none_iff.2 hlen
    simp only [hheld i x hi hx h, Option.bind_some, hget, Option.map_none]
  · have hget : x.page.lines[r.u16 6]? = some l := hl
    show queryReply s r = _
    rw [queryReply_line hline]
    simp only [hheld i x hi hx h, Option.bind_some, hget, Option.map_some, replyLine, LineFlags.code, code_of_held hx, leInt32_eq, hcode]
    simp only [replyHead, le8, le16, b, w, sb, List.cons_append, List.nil_append]
    exact rfl
  · refine hnone ((queryReply_note hnote).trans ?_)
    have hfind : findNote (r.u16 6) x.page.notes = none := findNote_eq_none.2 hno
    simp only [hheld i x hi hx h, Option.bind_some, hfind, Option.map_none]
  · obtain ⟨hfind, hpos⟩ := findNote_of_first hn hid hfirst
    have hfind : findNote (r.u16 6) x.page.notes = some n := hfind
    show queryReply s r = _
    rw [queryReply_note hnote]
    simp only [hheld i x hi hx h, Option.bind_some, hfind, Option.map_some, replyNote, code_of_held hx, hid, hpos, Nat.zero_add, hcode]
    simp only [replyHead, le8, le16, b, w, List.cons_append, List.nil_append]
    exact rfl
  · show queryReply s r = _
    rw [queryReply_lanes hk, replyLanes, hlane, hlane, hlane, hlane]
    simp only [replyHead, le16, List.append_assoc, List.cons_append, List.nil_append]
    exact rfl
  · refine hnone ((queryReply_tile hk).trans ?_)
    have hget : s.planner.tiles[r.u16 6]? = none := Vector.getElem?_eq_none_iff.2 h
    simp only [hget]
  · have hget : s.planner.tiles[r.u16 6]? = some t := ht
    show queryReply s r = _
    rw [queryReply_tile hk]
    simp only [hget]
    exact rfl
  · have hfault (ρ : Type) (code : ρ → Nat) (e : EdgeEvent) (slot : Option (Detail ρ)) (h : queryReply s r = replyFault s r e code slot) : fault ρ code e slot := by
      refine h.trans ?_
      cases slot <;> simp only [replyFault, le8, ofNat_u8] <;> rfl
    have hsel {k : Nat} (h : selector = k) : r.u8 5 = k := h
    refine ⟨fun h => hfault _ _ _ _ ((queryReply_fault hk).trans ?_), fun h => hfault _ _ _ _ ((queryReply_fault hk).trans ?_),
      fun h => hfault _ _ _ _ ((queryReply_fault hk).trans ?_), fun h => hfault _ _ _ _ ((queryReply_fault hk).trans ?_),
      fun h => hfault _ _ _ _ ((queryReply_fault hk).trans ?_), fun h => hnone ((queryReply_fault hk).trans ?_)⟩
    · simp only [hsel h]
    · simp only [hsel h]
    · simp only [hsel h]
    · simp only [hsel h]
    · simp only [hsel h]
    · obtain ⟨n, hn⟩ : ∃ n, r.u8 5 = n + 5 := ⟨r.u8 5 - 5, (Nat.sub_add_cancel h).symm⟩
      simp only [hn]
  · exact hnone (queryReply_of_le hk)

end

section
/-! PROOFS. Chapter 8: the level of every pixel after a line is drawn. -/

namespace Sys2Proof.Machine

open Sys2Proof

variable {s : State}

/-! ### Outside the band -/

theorem drawCoverage_get_of_out (x0 y0 : Int) (width : Nat) {lo hi : Nat} (hh : hi ≤ Config.panelHeight) (cs : List Level) (i : Nat) {px : Pixels}
    (h : px.wf) {x y : Nat} (hx : x < Config.panelWidth) (hy : ¬ (lo ≤ y ∧ y < hi)) :
    (drawCoverage x0 y0 width lo hi i cs px).get (pixelAddr x y) = px.get (pixelAddr x y) := by
  induction cs generalizing px i with
  | nil => rfl
  | cons c t ih =>
    unfold drawCoverage
    dsimp only
    split
    · next hc =>
      simp only [Bool.and_eq_true, decide_eq_true_eq] at hc
      have hwf := Pixels.modify_wf h (pixelAddr_lt (x := (x0 + ((i % width : Nat) : Int)).toNat) (y := (y0 + ((i / width : Nat) : Int)).toNat)
        (by omega) (by omega)) (inkLevel c)
      rw [ih (i + 1) hwf, Pixels.get_modify h, if_neg]
      rw [pixelAddr_inj hx (by omega)]
      omega
    · exact ih (i + 1) h

/-- R138: drawing a glyph changes no pixel outside the line's band. -/
theorem drawGlyph_get_of_out (s : State) (l : Line) {px : Pixels} (h : px.wf) (p : Placement) {x y : Nat} (hx : x < Config.panelWidth)
    (hy : ¬ (l.bandLo ≤ y ∧ y < l.bandHi)) : (drawGlyph s l px p).get (pixelAddr x y) = px.get (pixelAddr x y) := by
  unfold drawGlyph
  split
  · rfl
  · split
    · rfl
    · exact drawCoverage_get_of_out _ _ _ l.bandHi_le _ _ h hx hy

theorem bandRow_iff (l : Line) {x y : Nat} (hx : x < Config.panelWidth) :
    l.bandLo * Config.panelWidth ≤ pixelAddr x y ∧ pixelAddr x y < l.bandHi * Config.panelWidth ↔ l.bandLo ≤ y ∧ y < l.bandHi := by
  simp only [pixelAddr, Config.panelWidth] at *
  omega

/-- R95: the band in terms of the line's fields. -/
theorem band_iff (l : Line) {y : Nat} (hy : y < Config.panelHeight) :
    l.bandLo ≤ y ∧ y < l.bandHi ↔ l.baseline ≤ y + l.ascent ∧ y < l.baseline + l.descent + l.gap := by
  unfold Line.bandLo Line.bandHi
  omega

/-- R138: a line changes no pixel outside its band. -/
theorem drawLine_get_of_out (s : State) {page : Page} (hp : page.frame.left ≤ Config.maxSideMargins) (l : Line) {px : Pixels} (h : px.wf) {x y : Nat}
    (hx : x < Config.panelWidth) (hy : ¬ (l.bandLo ≤ y ∧ y < l.bandHi)) :
    (drawLine s page px l).get (pixelAddr x y) = px.get (pixelAddr x y) := by
  have hclear := Pixels.clearRows_wf h l.bandLo l.bandHi
  have hshade := foldl_wf (fun px h n => drawShade_wf s l (entryBoxes s (markHanging (·.cls) (page.placementsOf l))) h n)
    (page.notes.filter fun n => n.coversLine l) hclear
  have hglyph := foldl_wf (fun px h p => drawGlyph_wf s l h p) (page.placementsOf l) hshade
  have hline := foldl_wf (fun px h n => drawUnderline_wf l (entryBoxes s (markHanging (·.cls) (page.placementsOf l))) h n)
    (page.notes.filter fun n => n.coversLine l) hglyph
  unfold drawLine
  rw [foldl_get (g := fun v _ => v) (fun px h n => drawBar_wf page hp l h n)
      (fun px h n => (drawBar_get page hp l h n hx).trans (if_neg fun g => hy g.2.2)) _ hline,
    foldl_get (g := fun v _ => v) (fun px h n => drawUnderline_wf l _ h n)
      (fun px h n => (drawUnderline_get l _ h n hx).trans (if_neg fun g => hy g.2.2)) _ hglyph,
    foldl_get (g := fun v _ => v) (fun px h p => drawGlyph_wf s l h p) (fun px h p => drawGlyph_get_of_out s l h p hx hy) _ hshade,
    foldl_get (g := fun v _ => v) (fun px h n => drawShade_wf s l _ h n)
      (fun px h n => (drawShade_get s l _ h n hx).trans (if_neg fun g => hy g.2.2)) _ hclear,
    List.foldl_fixed, List.foldl_fixed, List.foldl_fixed, List.foldl_fixed, Pixels.get_clearRows, if_neg (mt (bandRow_iff l hx).1 hy)]

/-! ### Inside the band -/

/-- The glyph record that a placement is drawn with. -/
def State.drawnGlyph (s : State) (p : Placement) : Option Glyph := if p.drawn then s.glyphOf p.face p.code else none

theorem glyph_safe (hs : StoreSafe s) {face code : Nat} {g : Glyph} (h : s.glyphOf face code = some g) : g.Safe := by
  obtain ⟨f, -, h⟩ := Option.bind_eq_some_iff.1 h
  obtain ⟨t, ht, h⟩ := Option.bind_eq_some_iff.1 h
  obtain ⟨-, -, -, hsafe, -⟩ := hs.2 t (mem_of_tableAt ht)
  exact hsafe g (List.mem_of_find?_eq_some h)

/-- R143: the coverage that a placement on a line brings to the pixel in a column and row. -/
def glyphInk (s : State) (l : Line) (x y : Nat) (p : Placement) : Level :=
  match s.drawnGlyph p with
  | none => 0
  | some g =>
    let k := (x : Int) - (p.x + g.bearing)
    let r := (y : Int) - ((l.baseline : Int) - p.shift - g.top)
    if 0 ≤ k ∧ k < g.width ∧ 0 ≤ r ∧ r < g.height then g.coverage.getD (r.toNat * g.width + k.toNat) 0 else 0

theorem inkLevel_zero (v : Level) : inkLevel 0 v = v := by simp [inkLevel]

/-- R143 and R144: a whole bitmap lays its coverage on each pixel of the band. -/
theorem drawCoverage_get_whole {g : Glyph} (hlen : g.coverage.length = g.width * g.height) (x0 y0 : Int) {lo hi : Nat} (hh : hi ≤ Config.panelHeight)
    {px : Pixels} (h : px.wf) {x y : Nat} (hx : x < Config.panelWidth) (hy : lo ≤ y ∧ y < hi) :
    (drawCoverage x0 y0 g.width lo hi 0 g.coverage px).get (pixelAddr x y) = inkLevel
      (if 0 ≤ (x : Int) - x0 ∧ (x : Int) - x0 < g.width ∧ 0 ≤ (y : Int) - y0 ∧ (y : Int) - y0 < g.height
        then g.coverage.getD (((y : Int) - y0).toNat * g.width + ((x : Int) - x0).toNat) 0 else 0) (px.get (pixelAddr x y)) := by
  rcases Nat.eq_zero_or_pos g.width with hw | hw
  · have hnil : g.coverage = [] := List.eq_nil_of_length_eq_zero (by rw [hlen, hw, Nat.zero_mul])
    rw [hnil, if_neg (by omega), inkLevel_zero]
    rfl
  · rw [drawCoverage_get x0 y0 hw lo hi hh g.coverage 0 h hx hy.1 hy.2, Nat.sub_zero]
    by_cases hin : x0 ≤ x ∧ (x : Int) < x0 + g.width ∧ y0 ≤ y
    · rw [if_pos ⟨hin.1, hin.2.1, hin.2.2, Nat.zero_le _⟩]
      by_cases hr : (y : Int) - y0 < g.height
      · rw [if_pos ⟨by omega, by omega, by omega, hr⟩]
      · have hrows : g.height * g.width ≤ ((y : Int) - y0).toNat * g.width := Nat.mul_le_mul_right _ (by omega)
        have hpast : g.coverage.length ≤ ((y : Int) - y0).toNat * g.width + ((x : Int) - x0).toNat := by
          rw [hlen, Nat.mul_comm]
          exact Nat.le_trans hrows (Nat.le_add_right _ _)
        rw [List.getD_eq_default _ _ hpast, if_neg fun g => hr g.2.2.2]
    · rw [if_neg fun g => hin ⟨g.1, g.2.1, g.2.2.1⟩, if_neg (by omega), inkLevel_zero]

/-- R143 and R144: drawing a placement's glyph lays its coverage on each pixel of the band. -/
theorem drawGlyph_get (hs : StoreSafe s) (l : Line) {px : Pixels} (h : px.wf) (p : Placement) {x y : Nat} (hx : x < Config.panelWidth)
    (hy : l.bandLo ≤ y ∧ y < l.bandHi) :
    (drawGlyph s l px p).get (pixelAddr x y) = inkLevel (glyphInk s l x y p) (px.get (pixelAddr x y)) := by
  unfold drawGlyph glyphInk State.drawnGlyph
  cases p.drawn with
  | false => exact (inkLevel_zero _).symm
  | true =>
    cases hg : s.glyphOf p.face p.code with
    | none => exact (inkLevel_zero _).symm
    | some g =>
      obtain ⟨-, -, -, -, hlen⟩ := glyph_safe hs hg
      exact drawCoverage_get_whole hlen _ _ l.bandHi_le h hx hy

/-! ### Boxes and marks -/

/-- R140: the column after an entry's box. -/
def boxEnd (s : State) (next : Option Placement) (p : Placement) : Int :=
  match next with
  | some q => q.x
  | none => p.x + ((lastAdvance s p : Int) + 32) / 64

/-- R140: every entry that does not hang has a box, up to the next entry. -/
theorem mem_entryBoxes {marks : List (Placement × Bool)} {b : Nat × Int × Int} : b ∈ entryBoxes s marks ↔
    ∃ j p, marks[j]? = some (p, false) ∧ b = (p.ordinal, p.x, boxEnd s (marks[j + 1]?.map (·.1)) p) := by
  have hcons (m : Placement × Bool) (t : List (Placement × Bool)) :
      (∃ j p, (m :: t)[j]? = some (p, false) ∧ b = (p.ordinal, p.x, boxEnd s ((m :: t)[j + 1]?.map (·.1)) p)) ↔
        (m.2 = false ∧ b = (m.1.ordinal, m.1.x, boxEnd s (t[0]?.map (·.1)) m.1)) ∨
          ∃ j p, t[j]? = some (p, false) ∧ b = (p.ordinal, p.x, boxEnd s (t[j + 1]?.map (·.1)) p) := by
    constructor
    · rintro ⟨j, p, hj, hb⟩
      cases j with
      | zero =>
        obtain rfl : m = (p, false) := Option.some.inj hj
        exact .inl ⟨rfl, hb⟩
      | succ j => exact .inr ⟨j, p, hj, hb⟩
    · rintro (⟨hm, hb⟩ | ⟨j, p, hj, hb⟩)
      · exact ⟨0, m.1, congrArg some (Prod.ext rfl hm), hb⟩
      · exact ⟨j + 1, p, hj, hb⟩
  induction marks with
  | nil => simp [entryBoxes]
  | cons m t ih =>
    refine Iff.trans ?_ ((or_congr_right ih).trans (hcons m t).symm)
    obtain ⟨p, h⟩ := m
    cases t with
    | nil => cases h <;> simp [entryBoxes, boxEnd]
    | cons m' t => cases h <;> simp [entryBoxes, boxEnd]

/-- R141: a column is marked by a note that covers an entry in whose box it lies. -/
theorem mem_markedColumns_entryBoxes {n : Note} {ps : List Placement} {x : Nat} (hx : x < Config.panelWidth) :
    x ∈ markedColumns n (entryBoxes s (markHanging (·.cls) ps)) ↔
      ((markHanging (·.cls) ps).zipIdx.any fun q =>
        !q.1.2 && n.covers q.1.1.ordinal && decide (q.1.1.x ≤ (x : Int) ∧ (x : Int) < boxEnd s ps[q.2 + 1]? q.1.1)) = true := by
  have hnext (j : Nat) : (markHanging (·.cls) ps)[j]?.map (·.1) = ps[j]? := by
    rw [← List.getElem?_map, markHanging_fst]
  rw [mem_markedColumns hx, List.any_eq_true]
  simp only [mem_entryBoxes, hnext, Bool.and_eq_true, Bool.not_eq_true', decide_eq_true_eq]
  constructor
  · rintro ⟨b, ⟨j, p, hj, rfl⟩, hc, hlo, hhi⟩
    exact ⟨((p, false), j), List.mem_zipIdx_iff_getElem?.2 hj, ⟨rfl, hc⟩, hlo, hhi⟩
  · rintro ⟨⟨⟨p, h⟩, j⟩, hmem, ⟨rfl, hc⟩, hlo, hhi⟩
    exact ⟨_, ⟨j, p, List.mem_zipIdx_iff_getElem?.1 hmem, rfl⟩, hc, hlo, hhi⟩

theorem covers_iff (n : Note) (o : Nat) : n.covers o = true ↔ n.start ≤ o ∧ ∀ e, n.stop = some e → o ≤ e := by
  unfold Note.covers
  cases n.stop <;> simp

/-- R122: a note covers a line when it covers an ordinal of it. -/
theorem coversLine_iff (n : Note) (l : Line) : n.coversLine l = true ↔ ∃ o ∈ List.range' l.first l.count, n.covers o = true := by
  simp only [List.mem_range'_1, covers_iff]
  unfold Note.coversLine
  cases n.stop with
  | none =>
    simp only [Bool.and_eq_true, decide_eq_true_eq, and_true, reduceCtorEq, false_implies, implies_true]
    exact ⟨fun ⟨hc, hs⟩ => ⟨max l.first n.start, by omega, by omega⟩, fun ⟨o, ho, hs⟩ => by omega⟩
  | some e =>
    simp only [Bool.and_eq_true, decide_eq_true_eq, Option.some.injEq, forall_eq']
    exact ⟨fun ⟨⟨hc, hs⟩, he⟩ => ⟨max l.first n.start, by omega, by omega, by omega⟩, fun ⟨o, ho, hs, he⟩ => by omega⟩

/-! ### Levels as numbers -/

/-- Steps on levels that are steps on their numbers come to the same. -/
theorem foldl_val {α : Type} {g : Level → α → Level} {f : Nat → α → Nat} (h : ∀ v x, (g v x).val = f v.val x) (l : List α) (v : Level) :
    (l.foldl g v).val = l.foldl f v.val := by
  induction l generalizing v with
  | nil => rfl
  | cons x t ih => rw [List.foldl_cons, List.foldl_cons, ih, h]

theorem shadeLevel_val {floor : Nat} (hf : floor ≤ 15) (tone : Nat) (v : Level) : (shadeLevel floor tone v).val = max floor (v.val - tone) := by
  refine (Fin.val_ofNat ..).trans (Nat.mod_eq_of_lt ?_)
  omega

theorem inkLevel_val (c v : Level) : (inkLevel c v).val = v.val - (2 * v.val * c.val + 15) / 30 := by
  refine (Fin.val_ofNat ..).trans (Nat.mod_eq_of_lt ?_)
  omega

theorem underlineLevel_val (v : Level) : (underlineLevel v).val = min v.val 3 := by
  revert v
  decide

/-- R146: the bars of a line's notes. -/
theorem foldl_bar {P : Note → Prop} [DecidablePred P] {c : Prop} [Decidable c] (l : List Note) (v : Level) :
    (l.foldl (fun v n => if P n ∧ c then 0 else v) v) = if (∃ n ∈ l, P n) ∧ c then 0 else v := by
  induction l generalizing v with
  | nil => simp
  | cons n t ih =>
    rw [List.foldl_cons, ih]
    by_cases hc : c <;> by_cases hn : P n <;> simp [hc, hn]

theorem mem_barColumns {left x : Nat} : x ∈ barColumns left ↔ (if 12 ≤ left then left - 12 else 0) ≤ x ∧ x < (if 12 ≤ left then left - 12 else 0) + 3 := by
  unfold barColumns
  split
  · simp only [List.mem_cons, List.not_mem_nil, or_false]
    omega
  · simp only [List.mem_cons, List.not_mem_nil, or_false]
    omega

/-- R142: a SHADE note's step on the level of a pixel in column `x` of the band. -/
def shadeStep (floor : Nat) (boxes : List (Nat × Int × Int)) (x : Nat) (v : Level) (n : Note) : Level :=
  if n.style = .shade ∧ x ∈ markedColumns n boxes then shadeLevel floor n.tone v else v

/-- R145: an underlining note's step on the level of a pixel of the band. -/
def underlineStep (l : Line) (boxes : List (Nat × Int × Int)) (x y : Nat) (v : Level) (n : Note) : Level :=
  if y ∈ underlineRows l n ∧ x ∈ markedColumns n boxes then underlineLevel v else v

/-- R138 to R146: the steps that a pixel of the band goes through. -/
theorem drawLine_get_of_in (hs : StoreSafe s) {page : Page} (hp : page.frame.left ≤ Config.maxSideMargins) (l : Line) {px : Pixels} (h : px.wf) {x y : Nat}
    (hx : x < Config.panelWidth) (hy : l.bandLo ≤ y ∧ y < l.bandHi) {notes : List Note} (hn : page.notes.filter (fun n => n.coversLine l) = notes)
    {boxes : List (Nat × Int × Int)} (hb : entryBoxes s (markHanging (·.cls) (page.placementsOf l)) = boxes) :
    (drawLine s page px l).get (pixelAddr x y) =
      notes.foldl (fun v n => if (n.style = .marginBar ∧ n.coversLine l = true) ∧ x ∈ barColumns page.frame.left then 0 else v)
      (notes.foldl (underlineStep l boxes x y)
      ((page.placementsOf l).foldl (fun v p => inkLevel (glyphInk s l x y p) v)
      (notes.foldl (shadeStep s.params.shadeFloor boxes x) paper))) := by
  have hclear := Pixels.clearRows_wf h l.bandLo l.bandHi
  have hshade := foldl_wf (fun px h n => drawShade_wf s l boxes h n) notes hclear
  have hglyph := foldl_wf (fun px h p => drawGlyph_wf s l h p) (page.placementsOf l) hshade
  have hline := foldl_wf (fun px h n => drawUnderline_wf l boxes h n) notes hglyph
  unfold drawLine
  dsimp only
  rw [hn, hb,
    foldl_get (g := fun v n => if (n.style = .marginBar ∧ n.coversLine l = true) ∧ x ∈ barColumns page.frame.left then 0 else v)
      (fun px h n => drawBar_wf page hp l h n) (fun px h n => (drawBar_get page hp l h n hx).trans (by simp only [hy, and_true])) _ hline,
    foldl_get (g := underlineStep l boxes x y)
      (fun px h n => drawUnderline_wf l _ h n) (fun px h n => (drawUnderline_get l _ h n hx).trans (by simp only [underlineStep, hy, and_true])) _ hglyph,
    foldl_get (g := fun v p => inkLevel (glyphInk s l x y p) v)
      (fun px h p => drawGlyph_wf s l h p) (fun px h p => drawGlyph_get hs l h p hx hy) _ hshade,
    foldl_get (g := shadeStep s.params.shadeFloor boxes x)
      (fun px h n => drawShade_wf s l _ h n) (fun px h n => (drawShade_get s l _ h n hx).trans (by simp only [shadeStep, hy, and_true])) _ hclear,
    Pixels.get_clearRows, if_pos ((bandRow_iff l hx).2 hy)]

/-! ### Frames -/

theorem pixelAddr_mod {x : Nat} (hx : x < Config.panelWidth) (y : Nat) : pixelAddr x y % Config.panelWidth = x ∧ pixelAddr x y / Config.panelWidth = y := by
  simp only [pixelAddr, Config.panelWidth] at *
  omega

/-- R149: the pixels below a threshold, black on paper. -/
theorem get_belowThreshold {px : Pixels} (h : px.Pairwise fun p q => p.1 < q.1) {threshold : Nat} (ht : threshold ≤ 15) (k : Nat) :
    Pixels.get ((px.filter fun p => decide (p.2.val < threshold)).map fun p => (p.1, 0)) k = if threshold ≤ (px.get k).val then 15 else 0 := by
  induction px with
  | nil => exact (if_pos ht).symm
  | cons p t ih =>
    obtain ⟨a, v⟩ := p
    obtain ⟨hlt, ht'⟩ := List.pairwise_cons.1 h
    have hget : Pixels.get ((a, v) :: t) k = if a = k then v else Pixels.get t k := rfl
    rw [hget, List.filter_cons]
    by_cases hv : v.val < threshold
    · rw [if_pos (decide_eq_true hv)]
      show (if a = k then (0 : Level) else Pixels.get ((t.filter fun p => decide (p.2.val < threshold)).map fun p => (p.1, 0)) k) = _
      by_cases hk : a = k
      · rw [if_pos hk, if_pos hk, if_neg (not_le.2 hv)]
      · rw [if_neg hk, if_neg hk, ih ht']
    · rw [if_neg (by simpa using hv), ih ht']
      by_cases hk : a = k
      · have hpaper : Pixels.get t k = paper := Pixels.get_eq_paper fun p hp => by
          have := hlt p hp
          omega
        rw [if_pos hk, hpaper, if_pos (show threshold ≤ paper.val from ht), if_pos (not_lt.1 hv)]
      · rw [if_neg hk]

/-- R147: the tiles of the rectangle. -/
def inRect (q : Rect) (x y : Nat) : Prop := q.c0 ≤ x / 56 ∧ x / 56 ≤ q.c1 ∧ q.r0 ≤ y / 56 ∧ y / 56 ≤ q.r1

/-- R147 and R149: what a frame carries of each pixel. -/
theorem frameLevels_get (mode : Mode) {threshold : Nat} (ht : threshold ≤ 15) (q : Rect) {px : Pixels} (h : px.wf) {x : Nat} (hx : x < Config.panelWidth) (y : Nat) :
    (inRect q x y → (frameLevels mode threshold q px).get (pixelAddr x y) =
      if mode = .fast then (if threshold ≤ (px.get (pixelAddr x y)).val then 15 else 0) else px.get (pixelAddr x y)) ∧
    (¬ inRect q x y → (frameLevels mode threshold q px).get (pixelAddr x y) = 15) := by
  obtain ⟨hmod, hdiv⟩ := pixelAddr_mod hx y
  have htest : (q.c0 * Config.tileSide ≤ pixelAddr x y % Config.panelWidth && pixelAddr x y % Config.panelWidth < (q.c1 + 1) * Config.tileSide &&
      q.r0 * Config.tileSide ≤ pixelAddr x y / Config.panelWidth && pixelAddr x y / Config.panelWidth < (q.r1 + 1) * Config.tileSide) = true ↔ inRect q x y := by
    rw [hmod, hdiv]
    simp only [Bool.and_eq_true, decide_eq_true_eq, inRect, Config.tileSide]
    omega
  have hinside := Pixels.get_filter (fun a => q.c0 * Config.tileSide ≤ a % Config.panelWidth && a % Config.panelWidth < (q.c1 + 1) * Config.tileSide &&
      q.r0 * Config.tileSide ≤ a / Config.panelWidth && a / Config.panelWidth < (q.r1 + 1) * Config.tileSide) px (pixelAddr x y)
  have hfast := get_belowThreshold (Pixels.filter_wf h fun p => q.c0 * Config.tileSide ≤ p.1 % Config.panelWidth && p.1 % Config.panelWidth < (q.c1 + 1) * Config.tileSide &&
      q.r0 * Config.tileSide ≤ p.1 / Config.panelWidth && p.1 / Config.panelWidth < (q.r1 + 1) * Config.tileSide).1 ht (pixelAddr x y)
  constructor
  · intro hin
    rw [if_pos (htest.2 hin)] at hinside
    cases mode with
    | full => exact hinside
    | grey => exact hinside
    | fast =>
      rw [hinside] at hfast
      exact hfast
  · intro hin
    rw [if_neg (mt htest.1 hin)] at hinside
    cases mode with
    | full => exact hinside
    | grey => exact hinside
    | fast =>
      rw [hinside, if_pos (show threshold ≤ paper.val from ht)] at hfast
      exact hfast

/-- 10.2: the length of an UPDATE frame. -/
theorem updateFrameBytes_length (lane : Fin 4) (seq : BitVec 8) (mode : Mode) (q : Rect) (levels : Pixels) :
    (updateFrameBytes lane seq mode q levels).length = 8 + (q.r1 + 1 - q.r0) * 56 * ((q.c1 + 1 - q.c0) * 28) := by
  unfold updateFrameBytes
  rw [List.length_append, List.length_flatMap]
  simp only [List.length_map, List.length_range, List.map_const', List.sum_replicate, List.length_range', smul_eq_mul]
  rfl

end Sys2Proof.Machine
end

section

open Sys2Proof Sys2Proof.Machine

/-- Settles O49: each drawing step acts on one pixel as a step on its level, and a fold of steps as a fold of those. -/
theorem pixelsAreDrawnAndSent : Obligations.PixelsAreDrawnAndSent := by
  refine ⟨fun s page px l hpx hleft hs hparams => ⟨drawLine_wf s hleft l hpx, fun x y hx hy => ?_⟩, fun mode threshold q px hpx ht => ⟨fun x y hx hy => ?_, ?_⟩⟩
  · intro ps marks covers notes glyph last right marked ink ruled bar shaded inked lined
    have hcovers (n : Note) (o : Nat) : n.covers o = covers n o := Bool.eq_iff_iff.2 ((covers_iff n o).trans decide_eq_true_iff.symm)
    have hnotes : page.notes.filter (fun n => n.coversLine l) = notes := by
      refine List.filter_congr fun n _ => Bool.eq_iff_iff.2 ?_
      rw [coversLine_iff, List.any_eq_true]
      simp only [hcovers]
    have hlast (p : Placement) : lastAdvance s p = last p := by
      unfold lastAdvance
      dsimp only [last, glyph]
      cases p.drawn <;> rfl
    have hright (j : Nat) (p : Placement) : boxEnd s ps[j + 1]? p = right j p := by
      simp only [boxEnd, hlast, right] <;> rfl
    generalize hboxes : entryBoxes s (markHanging (·.cls) (page.placementsOf l)) = boxes
    have hmarked (n : Note) : x ∈ markedColumns n boxes ↔ marked n = true := by
      rw [← hboxes, mem_markedColumns_entryBoxes hx]
      simp only [hcovers]
      show (marks.zipIdx.any fun q => !q.1.2 && covers n q.1.1.ordinal && decide (q.1.1.x ≤ (x : Int) ∧ (x : Int) < boxEnd s ps[q.2 + 1]? q.1.1)) = true ↔ _
      simp only [hright] <;> rfl
    have hink (p : Placement) : (glyphInk s l x y p).val = ink p := by
      have hglyph : s.drawnGlyph p = glyph p := rfl
      unfold glyphInk
      rw [hglyph]
      dsimp only [ink]
      cases glyph p with
      | none => rfl
      | some g => exact apply_ite Fin.val _ _ _
    have hruled (n : Note) : y ∈ underlineRows l n ↔ ruled n = true := by
      unfold underlineRows
      dsimp only [ruled]
      cases n.style <;> simp
    have hfloor : s.params.shadeFloor ≤ 15 := by
      obtain ⟨-, -, -, hfloor, -⟩ := hparams
      omega
    by_cases hband : l.bandLo ≤ y ∧ y < l.bandHi
    · rw [if_pos ((band_iff l hy).1 hband), drawLine_get_of_in hs hleft l hpx hx hband hnotes hboxes, foldl_bar, apply_ite Fin.val]
      have hshaded : (notes.foldl (shadeStep s.params.shadeFloor boxes x) paper).val = shaded := by
        refine foldl_val (f := fun v n => if n.style = .shade ∧ marked n = true then max s.params.shadeFloor (v - n.tone) else v) (fun v n => ?_) notes paper
        simp only [shadeStep, hmarked, apply_ite Fin.val, shadeLevel_val hfloor]
      have hinked : (ps.foldl (fun v p => inkLevel (glyphInk s l x y p) v) (notes.foldl (shadeStep s.params.shadeFloor boxes x) paper)).val = inked := by
        rw [foldl_val (f := fun v p => v - (2 * v * ink p + 15) / 30) (fun v p => (inkLevel_val _ v).trans (by rw [hink])), hshaded]
      have hbars : (∃ n ∈ notes, n.style = .marginBar ∧ n.coversLine l = true) ↔ ∃ n ∈ notes, n.style = .marginBar := by
        refine exists_congr fun n => and_congr_right fun hn => and_iff_left ?_
        rw [← hnotes] at hn
        exact (List.mem_filter.1 hn).2
      have hlined : (notes.foldl (underlineStep l boxes x y) (ps.foldl (fun v p => inkLevel (glyphInk s l x y p) v)
          (notes.foldl (shadeStep s.params.shadeFloor boxes x) paper))).val = lined := by
        rw [foldl_val (f := fun v n => if ruled n = true ∧ marked n = true then min v 3 else v) (fun v n => by
          simp only [underlineStep, hruled, hmarked, apply_ite Fin.val, underlineLevel_val]), hinked]
      exact if_congr (and_congr hbars mem_barColumns) rfl hlined
    · rw [if_neg (mt (band_iff l hy).2 hband), drawLine_get_of_out s hleft l hpx hx hband]
  · exact frameLevels_get mode ht q hpx hx y
  · exact fun lane seq levels => updateFrameBytes_length lane seq mode q levels

end
